-- ==== Sys2Proof/Word.lean ====
section
/-! DEFINITION. The plain types of values the STP engine handles: bytes (R9), operation codes (R104), port names,
command arguments and typed values (R105, R220). -/

namespace Sys2Proof

/-- An unsigned 8-bit value (R9). -/
abbrev Byte := BitVec 8

/-- A 4-bit operation code (R104). -/
abbrev Nibble := BitVec 4

/-- The name of a serial port (R231: "`claim(port: Optional[string])`"). -/
abbrev PortName := String

/-- One typed argument of a command: `None`, or a value in the caller's own bytes (R220, R222). The block treats it
opaquely; DESIGN CHOICE (log 20). -/
abbrev Arg := Option (List Byte)

/-- The typed argument list of a command (R224). -/
abbrev Args := List Arg

/-- The typed value of a command's result, in the caller's own bytes (R220). DESIGN CHOICE (log 20). -/
abbrev Value := List Byte

end Sys2Proof
end

