-- ==== Sys2Proof/Config.lean ====
section
/-! DEFINITION. What is fixed for one engine: the constants of R6, the configuration record of R7 and R8, and the
uninterpreted constants that stand for what the source leaves open (`DESCRIPTOR`, `GUARD`, `PROBE`, and the choice of
`RX_DESYNC_POLICY = any_after_nack`). -/

namespace Sys2Proof

/-! ### The constants of R6 -/

/-- `SOF`, the start byte (R6, R90). -/
def Config.sof : Byte := 0x01#8
/-- `ACK`, "byte accepted, expected" (R6, R97). -/
def Config.ack : Byte := 0x0D#8
/-- `NACK`, "byte unexpected/rejected" (R6, R97). -/
def Config.nack : Byte := 0x07#8
/-- `CRC_POLY`, the low eight bits of the generator 0x107 (R6, R130). -/
def Config.crcPoly : Byte := 0x07#8
/-- `CRC_INIT` (R6, R130). -/
def Config.crcInit : Byte := 0x00#8
/-- `HDR_LEN` (R6). -/
def Config.hdrLen : Nat := 4
/-- `MAX_PAYLOAD` (R6). -/
def Config.maxPayload : Nat := 255
/-- `MAX_FRAME` (R6). -/
def Config.maxFrame : Nat := 259
/-- The kind `GET_LowPowerEnable` of the source's example (R103). -/
def Config.kindGetLowPowerEnable : Byte := 0x08#8
/-- The kind `GET_DI` of the source's example (R103). -/
def Config.kindGetDi : Byte := 0x20#8

/-! ### The configuration record (R7, R8) -/

/-- `ROLE` (R8, R270): it decides only the direction labels of the link trace. -/
inductive Role where
  | initiator
  | responder
  deriving DecidableEq, Repr

/-- `RX_LAST_BYTE_POLICY` (R8, R193). -/
inductive LastBytePolicy where
  | positionOnly
  | crcGated
  deriving DecidableEq, Repr

/-- `RX_DESYNC_POLICY` (R8, R199). -/
inductive DesyncPolicy where
  | never
  | anyAfterNack
  deriving DecidableEq, Repr

/-- The peer addressed (R3): it decides which rule of port discovery applies (R231). -/
inductive Device where
  | dioCard
  | automotive
  deriving DecidableEq, Repr

/-- The configuration record of R7 and R8, with the defaults those rules give. The spec gives the device no default:
the DIO card is a DESIGN CHOICE (log 13). -/
structure Params where
  role : Role := .initiator
  lastByte : LastBytePolicy := .positionOnly
  desync : DesyncPolicy := .never
  device : Device := .dioCard
  nacksNeeded : Nat := 5
  timeThresholdMs : Nat := 2500
  dioVid : BitVec 16 := 0x353F#16
  dioPid : BitVec 16 := 0xA105#16
  deriving DecidableEq, Repr

/-! ### What the source leaves open

None of these constants has a body, so nothing can be proved about a value of one (log 14, 15, 20, 21). What R224 says of the
two example kinds stands over the descriptor's, in `Machine/Operands.lean`. -/

/-- A serial port found by enumeration, with its USB identity (R232, R107). -/
structure Candidate where
  name : PortName
  vid : BitVec 16
  pid : BitVec 16
  deriving DecidableEq, Repr

/-- A byte read from a candidate during its probe, with the time since the probe's start (R234). -/
structure ProbeReply where
  atMs : Nat
  byte : Byte
  deriving DecidableEq, Repr

/-- How a reception that wrote a NACK ends under `any_after_nack` (R199, U10): with one of -3, -5 and -6. -/
inductive DesyncChoice where
  | nackError
  | ackError
  | sofError
  deriving DecidableEq, Repr, Inhabited

/-- `DESCRIPTOR`: the positions of the required arguments of a kind (R220, R222). -/
opaque Config.requiredArgs : Byte → List Nat
/-- `GUARD`: whether the precondition of a kind is violated by the arguments (R223). -/
opaque Config.guardViolated : Byte → Args → Bool
/-- `DESCRIPTOR`: the payload that encodes the arguments, or none for "may yield -9" (R220, R224). -/
opaque Config.encodeArgs : Byte → Args → Option (List Byte)
/-- `DESCRIPTOR`: the expected number of response payload bytes (R224). -/
opaque Config.responseLen : Byte → Nat
/-- `DESCRIPTOR`: the typed value of a response payload (R224). -/
opaque Config.decodeResult : Byte → List Byte → Value
/-- `DESCRIPTOR`: whether a value lies in the kind's valid range (R224, R226). -/
opaque Config.inValidRange : Byte → Value → Bool

/-- The serial ports the `n`-th discovery enumerates, in order (R232). -/
opaque Config.candidates : Nat → List Candidate
/-- `PROBE`: the bytes read from a port during its probe in the `n`-th discovery, in order of time (R234). -/
opaque Config.probeReplies : Nat → PortName → List ProbeReply
/-- Whether a probe passes that the rules do not decide: replies with neither enough NACKs nor an ACK, an ACK and then enough
NACKs, or in the DIO role no reply at all (log 21). -/
opaque Config.probeUndecidedPasses : Nat → PortName → Bool
/-- The environment's choice under `any_after_nack` (R199). -/
opaque Config.desyncChoice : Nat → DesyncChoice

end Sys2Proof
end

