-- ==== Sys2Proof/Syntax.lean ====
section
/-! DEFINITION. What is presented to the engine: a request at the operation port (R104, R105), bytes on the wire (R90, R97),
and `Instr`, one constructor for each row of `spec/opcode_table.json`. -/

namespace Sys2Proof

/-- One operand of an operation, in the forms of R105. The spec gives operands no bits: the port is transaction-level
(D1), so an operand is carried as the value it is; DESIGN CHOICE (log 4). -/
inductive Operand where
  | byte (b : Byte)
  | bytes (s : List Byte)
  | args (a : Args)
  | port (p : Option PortName)
  deriving DecidableEq, Repr

/-- An operation as the operation port shows it: its 4-bit code and its operands (R104). -/
structure Request where
  code : Nibble
  operands : List Operand
  deriving DecidableEq, Repr

/-- The two places where something of the opcode table can stand: the operation port, or the wire towards the block. -/
inductive Presented where
  | op (r : Request)
  | wire (bytes : List Byte)
  deriving DecidableEq, Repr

/-- The rows of `spec/opcode_table.json`: fourteen operations, two reserved codes, three wire symbols and two example kinds
of `FRAME` (R104). A frame's `length` is the number of its payload bytes (R92) and is not stored twice; its `checksum` is
whatever byte the wire carries, since no value is illegal in itself (R102 (b)). -/
inductive Instr where
  | crcClr
  | crcUpd (b : Byte)
  | crcRd
  | checksum (bs : List Byte)
  | encode (kind : Byte) (payload : List Byte)
  | decRst
  | decPush (b : Byte)
  | decQry
  | decode (bs : List Byte)
  | sendFrame (kind : Byte) (payload : List Byte)
  | recvFrame
  | invoke (kind : Byte) (args : Args)
  | claim (port : Option PortName)
  | release
  | reservedE
  | reservedF
  | frame (crc kind : Byte) (payload : List Byte)
  | ack
  | nack
  | frameGetLowPowerEnable (crc : Byte) (payload : List Byte)
  | frameGetDi (crc : Byte) (payload : List Byte)
  deriving DecidableEq, Repr

end Sys2Proof
end

