-- ==== Sys2Proof/WellFormed.lean ====
section
/-! DEFINITION. Which terms of `Instr` stand for something that can be presented. -/

namespace Sys2Proof

/-- A frame on the wire carries at most 255 payload bytes, since `length` is one byte (R92). -/
def payloadFits (payload : List Byte) : Bool := decide (payload.length ≤ Config.maxPayload)

/-- The two example kinds have rows of their own in the opcode table (R103). -/
def isExampleKind (kind : Byte) : Bool := kind == Config.kindGetLowPowerEnable || kind == Config.kindGetDi

/-- Every operand of an operation is legal: a payload above 255 bytes is an operand that fails, not an ill-formed one (R105,
R151). A frame symbol needs a payload its `length` can state, and the plain `FRAME` row is the one of the kinds that have no
row of their own. -/
def Instr.wf : Instr → Bool
  | .crcClr => true
  | .crcUpd _ => true
  | .crcRd => true
  | .checksum _ => true
  | .encode _ _ => true
  | .decRst => true
  | .decPush _ => true
  | .decQry => true
  | .decode _ => true
  | .sendFrame _ _ => true
  | .recvFrame => true
  | .invoke _ _ => true
  | .claim _ => true
  | .release => true
  | .reservedE => true
  | .reservedF => true
  | .frame _ kind payload => payloadFits payload && !isExampleKind kind
  | .ack => true
  | .nack => true
  | .frameGetLowPowerEnable _ payload => payloadFits payload
  | .frameGetDi _ payload => payloadFits payload

end Sys2Proof
end

