-- ==== Sys2Proof/Decode.lean ====
section
/-! DEFINITION. The decoder, total on anything presented and rejecting by name, the encoder, and the reading of a word of
`spec/opcode_table.json`. -/

namespace Sys2Proof

/-- Why something presented is no row of the opcode table. -/
inductive DecodeError where
  /-- the operands do not have the forms R104 gives the code -/
  | operandShape
  /-- no symbol of the wire begins so (R102 (a)) -/
  | notASymbol
  /-- a start byte with fewer bytes than `4 + length` (R96) -/
  | truncatedFrame
  /-- bytes beyond the declared length (R102 (d)) -/
  | trailingBytes
  deriving DecidableEq, Repr

/-- The table row a frame of this kind belongs to (R103). -/
def frameInstr (crc kind : Byte) (payload : List Byte) : Instr :=
  if kind = Config.kindGetLowPowerEnable then .frameGetLowPowerEnable crc payload
  else if kind = Config.kindGetDi then .frameGetDi crc payload
  else .frame crc kind payload

/-- The operation port: the codes and operand forms of R104. A reserved code is one whatever stands beside it. -/
def decodeOp (r : Request) : Except DecodeError Instr :=
  match r.code.toNat, r.operands with
  | 0x0, [] => .ok .crcClr
  | 0x1, [.byte b] => .ok (.crcUpd b)
  | 0x2, [] => .ok .crcRd
  | 0x3, [.bytes bs] => .ok (.checksum bs)
  | 0x4, [.byte kind, .bytes payload] => .ok (.encode kind payload)
  | 0x5, [] => .ok .decRst
  | 0x6, [.byte b] => .ok (.decPush b)
  | 0x7, [] => .ok .decQry
  | 0x8, [.bytes bs] => .ok (.decode bs)
  | 0x9, [.byte kind, .bytes payload] => .ok (.sendFrame kind payload)
  | 0xA, [] => .ok .recvFrame
  | 0xB, [.byte kind, .args args] => .ok (.invoke kind args)
  | 0xC, [.port p] => .ok (.claim p)
  | 0xD, [] => .ok .release
  | 0xE, _ => .ok .reservedE
  | 0xF, _ => .ok .reservedF
  | _, _ => .error .operandShape

/-- The wire: one acknowledgment byte (R97), or one whole frame, told by its start byte and measured by its third byte
(R90, R91, R96). -/
def decodeWire (bytes : List Byte) : Except DecodeError Instr :=
  match bytes with
  | [] => .error .notASymbol
  | [b] =>
    if b = Config.ack then .ok .ack
    else if b = Config.nack then .ok .nack
    else if b = Config.sof then .error .truncatedFrame
    else .error .notASymbol
  | start :: crc :: len :: kind :: payload =>
    if start ≠ Config.sof then .error .notASymbol
    else if payload.length < len.toNat then .error .truncatedFrame
    else if len.toNat < payload.length then .error .trailingBytes
    else .ok (frameInstr crc kind payload)
  | start :: _ => if start = Config.sof then .error .truncatedFrame else .error .notASymbol

/-- The decoder: whatever is presented is read as a row of the opcode table or rejected by name. -/
def decode : Presented → Except DecodeError Instr
  | .op r => decodeOp r
  | .wire bytes => decodeWire bytes

/-- The bytes of a frame on the wire, field by field (R68, R90): start byte, checksum, length, kind, payload. -/
def wireFrame (crc kind : Byte) (payload : List Byte) : List Byte :=
  Config.sof :: crc :: BitVec.ofNat 8 payload.length :: kind :: payload

/-- The encoder: what is presented for an instruction, from the codes of R104 and the wire formats of R90 and R97. -/
def encode : Instr → Presented
  | .crcClr => .op ⟨0x0#4, []⟩
  | .crcUpd b => .op ⟨0x1#4, [.byte b]⟩
  | .crcRd => .op ⟨0x2#4, []⟩
  | .checksum bs => .op ⟨0x3#4, [.bytes bs]⟩
  | .encode kind payload => .op ⟨0x4#4, [.byte kind, .bytes payload]⟩
  | .decRst => .op ⟨0x5#4, []⟩
  | .decPush b => .op ⟨0x6#4, [.byte b]⟩
  | .decQry => .op ⟨0x7#4, []⟩
  | .decode bs => .op ⟨0x8#4, [.bytes bs]⟩
  | .sendFrame kind payload => .op ⟨0x9#4, [.byte kind, .bytes payload]⟩
  | .recvFrame => .op ⟨0xA#4, []⟩
  | .invoke kind args => .op ⟨0xB#4, [.byte kind, .args args]⟩
  | .claim p => .op ⟨0xC#4, [.port p]⟩
  | .release => .op ⟨0xD#4, []⟩
  | .reservedE => .op ⟨0xE#4, []⟩
  | .reservedF => .op ⟨0xF#4, []⟩
  | .frame crc kind payload => .wire (wireFrame crc kind payload)
  | .ack => .wire [Config.ack]
  | .nack => .wire [Config.nack]
  | .frameGetLowPowerEnable crc payload => .wire (wireFrame crc Config.kindGetLowPowerEnable payload)
  | .frameGetDi crc payload => .wire (wireFrame crc Config.kindGetDi payload)

/-! ### Words of the opcode table -/

/-- The operands of a code with every operand bit zero: a zero byte, an empty sequence, no argument, no port name. -/
def zeroOperands (code : Nibble) : List Operand :=
  match code.toNat with
  | 0x1 => [.byte 0]
  | 0x3 => [.bytes []]
  | 0x4 => [.byte 0, .bytes []]
  | 0x6 => [.byte 0]
  | 0x8 => [.bytes []]
  | 0x9 => [.byte 0, .bytes []]
  | 0xB => [.byte 0, .args []]
  | 0xC => [.port none]
  | _ => []

/-- What a word of `spec/opcode_table.json` presents. A word of at most eight bits is read at the operation port through the
table's mask 0xF; a wider one is a frame header, first transmitted byte leftmost (R91), followed by the zero payload bytes its
length declares. The 8-bit rows `ACK` and `NACK` carry the same numbers as the codes of `RELEASE` and `DEC_QRY`: as table
words they are read as the codes (log 5); on the wire they are `decodeWire`'s. -/
def tableWord (nbits w : Nat) : Presented :=
  if nbits ≤ 8 then .op ⟨BitVec.ofNat 4 w, zeroOperands (BitVec.ofNat 4 w)⟩
  else
    let len : Byte := BitVec.ofNat 8 (w / 0x100)
    .wire (BitVec.ofNat 8 (w / 0x1000000) :: BitVec.ofNat 8 (w / 0x10000) :: len :: BitVec.ofNat 8 w ::
      List.replicate len.toNat 0)

/-- The instruction the decoder reads from a word of the opcode table, numbered as the table numbers it. -/
def decodeTableWord (nbits w : Nat) : Option Instr :=
  match decode (tableWord nbits w) with
  | .ok i => some i
  | .error _ => none

end Sys2Proof
end

