-- ==== Sys2Proof/Machine/State.lean ====
section
/-! DEFINITION. The state of the engine as plain data (R20 to R47), the outcomes an operation can have, the inputs of the
environment, the reasons a step can stop, and the state after reset (R46, R300). -/

namespace Sys2Proof.Machine

open Sys2Proof

/-- One of the two frame buffers (R60), held as the list of the bytes at its offsets 0, 1, ...: an offset at or above the
length holds no value (R47). The list is the one canonical form of the buffer. -/
abbrev Memory := List Byte

/-- The addressable spaces (R60). -/
inductive Space where
  | txBuf
  | decBuf
  deriving DecidableEq, Repr

/-- The status taxonomy (R250): exactly these eleven values exist (R101). -/
inductive Status where
  | success
  | sendCmdFailure
  | recvUnexpectedPayloadError
  | recvFrameNackError
  | recvFrameCrcError
  | recvFrameAckError
  | recvFrameSofError
  | recvPartialFrameValidationError
  | recvFrameValueError
  | formatNoneError
  | shutdownVoltageOverSystemVal
  deriving DecidableEq, Repr

/-- `DIAG` (R38). -/
inductive Diag where
  | none
  | replyNack
  | replyOther
  | timeout
  | closed
  | encode
  deriving DecidableEq, Repr

/-- The four errors of the Frame Codec (R251). -/
inductive CodecError where
  | valueError
  | sofError
  | partialFrameError
  | crcError
  deriving DecidableEq, Repr

/-- `DEC.ST`, the accumulator's verdict (R29). -/
inductive Verdict where
  | incomplete
  | complete
  | sofError
  | crcError
  deriving DecidableEq, Repr

/-- `XFER.PHASE` (R32). -/
inductive Phase where
  | idle
  | txWrite
  | txWait
  | rxWait
  | rxReply
  deriving DecidableEq, Repr

/-- `frame(k, p)`, the abstract pair of kind and payload (R109). -/
structure Frame where
  kind : Byte
  payload : List Byte
  deriving DecidableEq, Repr

/-- The accumulator `DEC.*` (R25 to R30). `DEC.N` is the length of `buf` (R27, R47). -/
structure Accumulator where
  buf : Memory
  crc : Byte
  st : Verdict
  exp : Bool
  deriving DecidableEq, Repr

/-- The direction of a link event: host to peer, or peer to host (R112). -/
inductive Dir where
  | hostToPeer
  | peerToHost
  deriving DecidableEq, Repr

/-- What a link event shows (R112): a byte `xx`, a read that timed out `--`, or a primitive that found the port closed
`!!`. -/
inductive Mark where
  | byte (b : Byte)
  | timeout
  | closed
  deriving DecidableEq, Repr

/-- One event of the link trace (R112). -/
structure LinkEvent where
  dir : Dir
  mark : Mark
  deriving DecidableEq, Repr

/-- How an operation ended, with its result (R11): what the caller gets back. -/
inductive Ending where
  /-- ok, with no result: `CRC_CLR`, `CRC_UPD`, `DEC_RST`, `RELEASE` -/
  | done
  /-- ok, a checksum: `CRC_RD`, `CHECKSUM` -/
  | byte (b : Byte)
  /-- ok, the bytes of a frame: `ENCODE` -/
  | bytes (bs : List Byte)
  /-- ok, `DEC.ST` and `DEC.EXP`: `DEC_PUSH` -/
  | verdict (st : Verdict) (exp : Bool)
  /-- ok, `DEC.ST` and the frame when `COMPLETE`: `DEC_QRY` -/
  | query (st : Verdict) (f : Option Frame)
  /-- ok, a frame: `DECODE`, `RECV_FRAME` -/
  | frame (f : Frame)
  /-- ok: `SEND_FRAME` -/
  | sent
  /-- ok, the handle of the claimed port: `CLAIM` -/
  | claimed (port : PortName)
  /-- the codec error of `ENCODE`, `DECODE`, `SEND_FRAME` (R251) -/
  | codecError (e : CodecError)
  /-- the failure status of `SEND_FRAME`, `RECV_FRAME` (R250) -/
  | failed (st : Status)
  /-- the pair `INVOKE` returns (R227) -/
  | invoked (st : Status) (value : Option Value)
  /-- the failure of `CLAIM` (R253) -/
  | discoveryError
  deriving DecidableEq, Repr

/-- What the agents around the engine do, one item a step (R257, R275 to R278). -/
inductive Input where
  /-- the caller presents an operation, or the wire delivers bytes towards the block -/
  | present (p : Presented)
  /-- the sequencer makes its step (R276) -/
  | run
  /-- the link and the peer leave these bytes in the two channels: bytes changed, lost, inserted, or taken by the peer (R70) -/
  | link (inbound outbound : List Byte)
  /-- the port is closed or reset (R181, R257, R307); only a `CLAIM` opens it again (log 8) -/
  | closePort
  /-- the reset event (R300) -/
  | reset
  deriving DecidableEq, Repr

/-- The model's own faults. They stand for no behaviour of the hardware (R266). -/
inductive Fault where
  /-- a rule would read an element that holds no value (R47, U6): raised by the sequencer's read of `TX.BUF[TX.IDX]` with
  `TX.IDX >= TX.LEN`, and by `DEC_QRY` and the sequencer's latch of a `COMPLETE` verdict over a buffer that holds no frame.
  Safe: no state that meets the invariant raises it. -/
  | noValue (space : Space)
  deriving DecidableEq, Repr

/-- Uses to which the spec gives no meaning (R254), and the arms of `exec` that are still without one. All are safe: the
model declines the use. -/
inductive Refusal where
  /-- `exec`'s arm of this row has no meaning yet -/
  | notModelled (mnemonic : String)
  /-- R308: a link operation while `XFER.PHASE != IDLE`, or `DEC_RST`, `DEC_PUSH` during a reception; raised by the meanings of
  those operations -/
  | busy
  /-- R303: `SEND_FRAME`, `RECV_FRAME` or `INVOKE` while `PORT.CLAIMED == 0`; raised by their meanings -/
  | noPort
  /-- R104, R254 (c): the reserved codes 0xE and 0xF; raised by their meanings -/
  | reservedCode (code : Nibble)
  /-- operands that do not have the forms of R104 and R105; raised by the operation port when the decoder rejects -/
  | badRequest (e : DecodeError)
  deriving DecidableEq, Repr

/-- The state: one field per element (R20). The elements that stand in no rule of `10_state.md` are marked. -/
structure State where
  /-- the configuration record of R7 and R8: carried, never written (R43, R45; log 13) -/
  params : Params
  /-- `CRC.R` (R22) -/
  crc : Byte
  /-- `DEC.*` (R25) -/
  dec : Accumulator
  /-- `XFER.PHASE` (R32), which is also the lock of R41 -/
  phase : Phase
  /-- `TX.BUF` (R33); `TX.LEN` (R34) is its length -/
  txBuf : Memory
  /-- `TX.IDX` (R35) -/
  txIdx : Nat
  /-- `RX.NACKS` (R36) -/
  rxNacks : Nat
  /-- `STATUS` (R37) -/
  status : Status
  /-- `DIAG` (R38) -/
  diag : Diag
  /-- `RESULT` (R39): `RESULT.VALID` is that a frame is there, `RESULT.LEN` the length of its payload -/
  result : Option Frame
  /-- `PORT.CLAIMED` (R40) -/
  claimed : Bool
  /-- the claimed port handle (R40, R231) -/
  handle : Option PortName
  /-- the kind of the `INVOKE` whose transfers are in progress (R220, R221; log 17) -/
  invoke : Option Byte
  /-- how the operation that ended last ended (R11); the model's own (log 32) -/
  ending : Option Ending
  /-- the channel towards the block (R44 (a), R70), oldest byte first -/
  inbound : List Byte
  /-- the channel towards the peer (R44 (a), R70), oldest byte first -/
  outbound : List Byte
  /-- whether the port is open (R44 (d)): opened by `CLAIM`, not open from a close or reset of the port on (log 8) -/
  portOpen : Bool
  /-- the link trace (R112), oldest event first -/
  trace : List LinkEvent
  /-- what the agents do next; the model's own (log 1) -/
  inputs : List Input
  /-- the counter that free values are taken at; the model's own (log 14) -/
  free : Nat
  deriving DecidableEq, Repr

/-- The empty accumulator (R155). -/
def Accumulator.empty : Accumulator := ⟨[], 0x00#8, .incomplete, false⟩

/-- The state after reset: the table of R46; for the elements of the environment and of the model see log 13 and 26. -/
def State.reset : State where
  params := {}
  crc := 0x00#8
  dec := Accumulator.empty
  phase := .idle
  txBuf := []
  txIdx := 0
  rxNacks := 0
  status := .success
  diag := .none
  result := none
  claimed := false
  handle := none
  invoke := none
  ending := none
  inbound := []
  outbound := []
  portOpen := false
  trace := []
  inputs := []
  free := 0

/-! ### Derived views -/

/-- `DEC.N` (R27). -/
def Accumulator.n (a : Accumulator) : Nat := a.buf.length

/-- `DEC.LEN_KNOWN` (R31). -/
def Accumulator.lenKnown (a : Accumulator) : Bool := decide (3 ≤ a.n)

/-- `TX.LEN` (R34). -/
def State.txLen (s : State) : Nat := s.txBuf.length

/-- `RESULT.VALID` (R39). -/
def State.resultValid (s : State) : Bool := s.result.isSome

end Sys2Proof.Machine
end

