-- ==== Sys2Proof/Machine/Memory.lean ====
section
/-! DEFINITION. The frame buffers as memory (R60, R61): reading one byte, the writes the rules make, and the canonical
form. -/

namespace Sys2Proof.Machine

open Sys2Proof

/-- The form of a buffer: no offset of 259 or more (R60, R61). -/
abbrev Memory.wf (m : Memory) : Prop := m.length ≤ Config.maxFrame

/-- One byte of a buffer; an offset at or above the length holds no value (R47). -/
def Memory.read (m : Memory) (addr : Nat) : Option Byte := m[addr]?

/-- `DEC.BUF[DEC.N] <- v` (R60, R156): the one write to a buffer that a rule makes byte by byte. -/
def Memory.append (m : Memory) (v : Byte) : Memory := m ++ [v]

/-- The buffer as pairs of address and byte, addresses rising. -/
def Memory.cells (m : Memory) : List Host.Cell := m.zipIdx.map fun (b, addr) => (addr, b)

/-- `MemRead(space, addr, 1)` (R10, R60). -/
def State.memRead (s : State) (space : Space) (addr : Nat) : Option Byte :=
  match space with
  | .txBuf => Memory.read s.txBuf addr
  | .decBuf => Memory.read s.dec.buf addr

end Sys2Proof.Machine
end

