-- ==== Sys2Proof/Machine/Operands.lean ====
section
/-! DEFINITION. Operand and result assembly: the checksum function (R132, R136), the bytes of a frame (R106, R150), the frame
in a byte sequence (R106, R160), and the codes of the status elements (R29, R32, R38, R100). -/

namespace Sys2Proof.Machine

open Sys2Proof

/-! ### The checksum (R130 to R136) -/

/-- One shift step of R132: the bit that leaves the register decides whether the polynomial is added. -/
def crcShift (r : Byte) : Byte :=
  if r.getLsbD 7 then (r <<< 1) ^^^ Config.crcPoly else r <<< 1

/-- `k` shift steps. -/
def crcShifts : Nat → Byte → Byte
  | 0, r => r
  | k + 1, r => crcShifts k (crcShift r)

/-- `crc8_step(r, b)` (R132). -/
def crc8Step (r b : Byte) : Byte := crcShifts 8 (r ^^^ b)

/-- The loop of R136 continued from a register value (R139 (d)). -/
def crc8From (r : Byte) (bs : List Byte) : Byte := bs.foldl crc8Step r

/-- `crc8(s)` (R136). -/
def crc8 (bs : List Byte) : Byte := crc8From Config.crcInit bs

/-! ### Frames -/

/-- `length = len(payload)` as an unsigned byte (R106). -/
def lenByte (payload : List Byte) : Byte := BitVec.ofNat 8 payload.length

/-- The bytes of the frame of a kind and payload (R68, R95, R150). -/
def frameBytes (kind : Byte) (payload : List Byte) : List Byte :=
  [Config.sof, crc8 (lenByte payload :: kind :: payload), lenByte payload, kind] ++ payload

/-- `ENCODE(kind, payload)` (R150, R151). -/
def encodeFrame (kind : Byte) (payload : List Byte) : Except CodecError (List Byte) :=
  if Config.maxPayload < payload.length then .error .valueError else .ok (frameBytes kind payload)

/-- `DECODE(s)` (R160): start byte, then completeness, then checksum (R161); bytes after the frame are not looked at (R163). -/
def decodeFrame (bs : List Byte) : Except CodecError Frame :=
  match bs with
  | [] => .error .partialFrameError
  | start :: rest =>
    if start ≠ Config.sof then .error .sofError
    else match rest with
      | crc :: len :: kind :: tail =>
        if tail.length < len.toNat then .error .partialFrameError
        else if crc8 (len :: kind :: tail.take len.toNat) ≠ crc then .error .crcError
        else .ok ⟨kind, tail.take len.toNat⟩
      | _ => .error .partialFrameError

/-- The frame that a complete buffer holds (R106, R159): `kind = BUF[3]`, `payload = BUF[4 .. 3 + BUF[2]]`; none where one of
those offsets holds no value. -/
def frameIn (buf : Memory) : Option Frame :=
  match buf with
  | _ :: _ :: len :: kind :: tail =>
    if tail.length < len.toNat then none else some ⟨kind, tail.take len.toNat⟩
  | _ => none

/-! ### The descriptor of a kind (R224)

The two example kinds have the request, the response length and the value that R103 and R224 give them; every other kind,
and every other argument list, is the external `DESCRIPTOR`'s (log 20). -/

/-- The positions of the required arguments (R222): the pin of `GET_DI`, none of `GET_LowPowerEnable`. -/
def requiredArgs (kind : Byte) : List Nat :=
  if kind = Config.kindGetDi then [0]
  else if kind = Config.kindGetLowPowerEnable then []
  else Config.requiredArgs kind

/-- `encode_args` (R224): N = 1, the pin, for `GET_DI`; N = 0 for `GET_LowPowerEnable`. -/
def encodeArgs (kind : Byte) (args : Args) : Option (List Byte) :=
  if kind = Config.kindGetDi then
    match args with
    | [some [pin]] => some [pin]
    | _ => Config.encodeArgs kind args
  else if kind = Config.kindGetLowPowerEnable then
    match args with
    | [] => some []
    | _ => Config.encodeArgs kind args
  else Config.encodeArgs kind args

/-- `response_len` (R224): M = 1 for both example kinds. -/
def responseLen (kind : Byte) : Nat := if isExampleKind kind then 1 else Config.responseLen kind

/-- `decode_result` (R224): for `GET_DI` the value is the payload byte. -/
def decodeResult (kind : Byte) (payload : List Byte) : Value :=
  if kind = Config.kindGetDi then payload else Config.decodeResult kind payload

/-- `valid_range` (R224, R226): the value 1 of `GET_DI` is in range (the example of R220); the ranges are otherwise in the
excluded catalogue. -/
def inValidRange (kind : Byte) (value : Value) : Bool :=
  if kind = Config.kindGetDi ∧ value = [0x01#8] then true else Config.inValidRange kind value

/-! ### Codes of the status elements -/

/-- The signed value of a status (R250). -/
def Status.value : Status → Int
  | .success => 0
  | .sendCmdFailure => -1
  | .recvUnexpectedPayloadError => -2
  | .recvFrameNackError => -3
  | .recvFrameCrcError => -4
  | .recvFrameAckError => -5
  | .recvFrameSofError => -6
  | .recvPartialFrameValidationError => -7
  | .recvFrameValueError => -8
  | .formatNoneError => -9
  | .shutdownVoltageOverSystemVal => -10

/-- `STATUS = status mod 256` (R100). -/
def Status.code (st : Status) : BitVec 8 := BitVec.ofInt 8 st.value

/-- The `STATUS` register as its eight bits (R37). -/
def State.statusReg (s : State) : BitVec 8 := s.status.code

/-- The two bits of `DEC.ST` (R29). -/
def Verdict.code : Verdict → BitVec 2
  | .incomplete => 0
  | .complete => 1
  | .sofError => 2
  | .crcError => 3

/-- The number of `XFER.PHASE` (R32). -/
def Phase.code : Phase → Nat
  | .idle => 0
  | .txWrite => 1
  | .txWait => 2
  | .rxWait => 3
  | .rxReply => 4

/-- The number of `DIAG` (R38). -/
def Diag.code : Diag → Nat
  | .none => 0
  | .replyNack => 1
  | .replyOther => 2
  | .timeout => 3
  | .closed => 4
  | .encode => 5

/-- How a codec error becomes a status at the transport and session boundaries (R252). -/
def CodecError.status : CodecError → Status
  | .valueError => .formatNoneError
  | .sofError => .recvFrameSofError
  | .partialFrameError => .recvPartialFrameValidationError
  | .crcError => .recvFrameCrcError

end Sys2Proof.Machine
end

