-- ==== Sys2Proof/Machine/Flags.lean ====
section
/-! DEFINITION. The status flags of R42: what `DEC_PUSH` makes of `DEC.ST` and `DEC.EXP` (R156, R157), and the
acknowledgment they become (R193). -/

namespace Sys2Proof.Machine

open Sys2Proof

/-- `DEC.NEED`: `4 + DEC.BUF[2]` once `length` is known (R31). -/
def Accumulator.need (a : Accumulator) : Option Nat := (Memory.read a.buf 2).map fun len => Config.hdrLen + len.toNat

/-- The verdict on a buffer and its running checksum just after a byte was accepted (R156): the last declared byte judges the
frame, any other leaves it incomplete. -/
def bufferVerdict (a : Accumulator) : Verdict :=
  if 4 ≤ a.n ∧ a.need = some a.n then
    if some a.crc = Memory.read a.buf 1 then .complete else .crcError
  else .incomplete

/-- The accumulator with a byte stored at `DEC.N` and, from the third byte on, fed to `DEC.CRC` (R156 (a)). -/
def Accumulator.store (a : Accumulator) (b : Byte) : Accumulator :=
  ⟨Memory.append a.buf b, if 2 ≤ a.n then crc8Step a.crc b else a.crc, a.st, true⟩

/-- `DEC_PUSH(b)` (R156, R157). -/
def Accumulator.push (a : Accumulator) (b : Byte) : Accumulator :=
  if a.st ≠ .incomplete then ⟨a.buf, a.crc, a.st, false⟩
  else if a.n = 0 then
    if b = Config.sof then ⟨[b], a.crc, .incomplete, true⟩ else ⟨a.buf, a.crc, .sofError, false⟩
  else
    let a' := a.store b
    ⟨a'.buf, a'.crc, bufferVerdict a', true⟩

/-- `DEC_PUSH` of each byte in turn, stopping at the first terminal verdict (R110, R164). -/
def Accumulator.pushAll (a : Accumulator) : List Byte → Accumulator
  | [] => a
  | b :: bs => if a.st ≠ .incomplete then a else (a.push b).pushAll bs

/-- Whether the byte just read was expected (R193): `DEC.EXP`, but that under `crc_gated` the last byte of a frame whose
checksum fails is not. -/
def expected (p : Params) (a : Accumulator) : Bool :=
  a.exp && !(p.lastByte == .crcGated && a.st == .crcError)

/-- The acknowledgment of the byte just read (R193). -/
def ackByte (p : Params) (a : Accumulator) : Byte := if expected p a then Config.ack else Config.nack

/-- Whether the accumulator is in use by a reception (R308). -/
def Phase.receiving : Phase → Bool
  | .rxWait => true
  | .rxReply => true
  | _ => false

end Sys2Proof.Machine
end

