-- ==== Sys2Proof/Machine/Ops.lean ====
section
/-! DEFINITION. The shared operations on the state: the two link primitives (R180, R181), what the environment does to the
link, when an operation is refused (R254), how an operation ends, the failure entry (R262), and how a transfer begins and
ends (R186, R191, R198, R225, R226). -/

namespace Sys2Proof.Machine

open Sys2Proof

/-! ### The link -/

/-- The answer of `LinkRead` (R181). -/
inductive ReadAnswer where
  | byte (b : Byte)
  | timeout
  | closed
  deriving DecidableEq, Repr

/-- The direction of what the block writes (R112). -/
def writeDir : Role → Dir
  | .initiator => .hostToPeer
  | .responder => .peerToHost

/-- The direction of what the block reads (R112). -/
def readDir : Role → Dir
  | .initiator => .peerToHost
  | .responder => .hostToPeer

/-- What `LinkRead` answers (R181): the closed port first ("an immediate failure on its next read/write"), else the oldest
byte of the channel, else nothing has come within `T_BYTE` (log 7, 8). -/
def readAnswer (s : State) : ReadAnswer :=
  if s.portOpen then
    match s.inbound with
    | [] => .timeout
    | b :: _ => .byte b
  else .closed

/-- The trace mark of an answer (R112). -/
def ReadAnswer.mark : ReadAnswer → Mark
  | .byte b => .byte b
  | .timeout => .timeout
  | .closed => .closed

/-- What `LinkRead` leaves (R66): a byte read is consumed, a read without a byte consumes nothing; one event in the trace. -/
def afterRead (s : State) : State :=
  { s with
    inbound := if s.portOpen then s.inbound.tail else s.inbound
    trace := s.trace ++ [⟨readDir s.params.role, (readAnswer s).mark⟩] }

/-- What a `LinkWrite(b)` that answers ok leaves (R65, R180): exactly one byte more in the channel, one event in the trace. -/
def afterWrite (b : Byte) (s : State) : State :=
  { s with
    outbound := s.outbound ++ [b]
    trace := s.trace ++ [⟨writeDir s.params.role, .byte b⟩] }

/-- What a `LinkWrite` that answers `CLOSED` leaves (R65, R180): no byte was sent, the marker is in the trace. -/
def afterClosedWrite (s : State) : State :=
  { s with trace := s.trace ++ [⟨writeDir s.params.role, .closed⟩] }

/-- Bytes arrive in the channel towards the block and wait there (R44, R261). -/
def arrive (bs : List Byte) (s : State) : State := { s with inbound := s.inbound ++ bs }

/-! ### Refusals (R254) -/

/-- `CLAIM` is refused while a transfer is in progress (R308). -/
def busyRefusal (s : State) : Option Refusal := if s.phase = .idle then none else some .busy

/-- `SEND_FRAME`, `RECV_FRAME` and `INVOKE` are refused while a transfer is in progress (R308) and while no port is claimed
(R303). Which of the two is named when both hold is a DESIGN CHOICE (log 27). -/
def transferRefusal (s : State) : Option Refusal :=
  if s.phase ≠ .idle then some .busy else if s.claimed then none else some .noPort

/-- `DEC_RST` and `DEC_PUSH` are refused while the receiver is using the accumulator (R308). -/
def accumulatorRefusal (s : State) : Option Refusal := if s.phase.receiving then some .busy else none

/-! ### Endings -/

/-- An operation that is one atomic step ends with its result (R11, R276). -/
def endWith (e : Ending) (s : State) : State := { s with ending := some e }

/-- What the caller is told of a failure: the status of the invocation when the transfer is part of one (R227), else the
status of the operation itself. -/
def failureEnding (s : State) (st : Status) : Ending := if s.invoke.isSome then .invoked st none else .failed st

/-- The failure entry, one for every status (R262): `XFER.PHASE <- IDLE`, `STATUS` and `DIAG` are written, a reception's
`RESULT.VALID <- 0`, the caller gets the status, nothing is saved, and `DEC.*`, `TX.*` and `RX.NACKS` stay as they were. There is
no return from it (R264): the next operation is accepted at once. -/
def takeFailure (st : Status) (d : Diag) (s : State) : State :=
  { s with
    phase := .idle
    status := st
    diag := d
    result := if s.phase.receiving then none else s.result
    ending := some (failureEnding s st)
    invoke := none }

/-- An operation that returns a status ends ok (R185, R190, R220): `STATUS <- 0x00`, `DIAG <- NONE`, `XFER.PHASE <- IDLE`. -/
def takeSuccess (e : Ending) (s : State) : State :=
  { s with
    phase := .idle
    status := .success
    diag := .none
    ending := some e
    invoke := none }

/-! ### Transfers -/

/-- `SEND_FRAME` accepted with the encoded frame `f` (R186): `TX.BUF`, `TX.LEN` loaded, `TX.IDX <- 0`. -/
def startSend (f : List Byte) (s : State) : State := { s with txBuf := f, txIdx := 0, phase := .txWrite }

/-- `RECV_FRAME` accepted (R191): `DEC_RST`, `RX.NACKS <- 0`, `RESULT.VALID <- 0`. -/
def startRecv (s : State) : State :=
  { s with dec := Accumulator.empty, rxNacks := 0, result := none, phase := .rxWait }

/-- Every frame byte is acknowledged: the send ends ok (R188), and an invocation goes on with `RECV_FRAME` (R220, R221)
without a gap in which another operation could be accepted (log 17). -/
def sendDone (s : State) : State :=
  match s.invoke with
  | none => takeSuccess .sent s
  | some _ => startRecv { s with status := .success, diag := .none }

/-- The response checks of `INVOKE` (R220, R225, R226, R259): kind and length first, then the value. -/
def responseStatus (kind : Byte) (f : Frame) : Status :=
  if f.kind ≠ kind ∨ f.payload.length ≠ responseLen kind then .recvUnexpectedPayloadError
  else if inValidRange kind (decodeResult kind f.payload) then .success
  else .recvFrameValueError

/-- `INVOKE` ends with the status of its response checks and, on success alone, the decoded value (R220, R227). The frame that
`RECV_FRAME` latched stays (R312). -/
def respond (kind : Byte) (f : Frame) (s : State) : State :=
  { s with
    phase := .idle
    status := responseStatus kind f
    diag := .none
    ending := some (.invoked (responseStatus kind f)
      (if responseStatus kind f = .success then some (decodeResult kind f.payload) else none))
    invoke := none }

/-- `RECV_FRAME` ends ok (R198): `RESULT` is latched, `STATUS <- 0x00`, `XFER.PHASE <- IDLE`; an invocation goes on with its
response checks. -/
def recvDone (f : Frame) (s : State) : State :=
  match s.invoke with
  | none => takeSuccess (.frame f) { s with result := some f }
  | some kind => respond kind f { s with result := some f }

/-- The status of the environment's choice (R199). -/
def DesyncChoice.status : DesyncChoice → Status
  | .nackError => .recvFrameNackError
  | .ackError => .recvFrameAckError
  | .sofError => .recvFrameSofError

/-- A reception ends in failure by its verdict (R195, R197): with the verdict's status, or, under `any_after_nack` and once a
NACK was written, with one the environment chooses (R199; log 15). `DIAG` is `NONE`: R190 says so for -6 and -4, and for -3
and -5, where no rule gives it, it is a DESIGN CHOICE (log 18). -/
def verdictFailure (own : Status) (s : State) : State :=
  if s.params.desync = .anyAfterNack ∧ 1 ≤ s.rxNacks then
    takeFailure (DesyncChoice.status (Config.desyncChoice s.free)) .none { s with free := s.free + 1 }
  else takeFailure own .none s

end Sys2Proof.Machine
end

