-- ==== Sys2Proof/Machine/ChecksumUnit.lean ====
section
/-! DEFINITION. The operations of the Checksum Unit (R133 to R136). They may be issued in any phase (R309). -/

namespace Sys2Proof.Machine

open Sys2Proof

/-- `CRC_CLR` (R133). -/
def execCrcClr (s : State) : Host.Outcome State Fault Refusal :=
  .next (endWith .done { s with crc := Config.crcInit })

/-- `CRC_UPD b` (R134). -/
def execCrcUpd (b : Byte) (s : State) : Host.Outcome State Fault Refusal :=
  .next (endWith .done { s with crc := crc8Step s.crc b })

/-- `CRC_RD` (R135). -/
def execCrcRd (s : State) : Host.Outcome State Fault Refusal :=
  .next (endWith (.byte s.crc) s)

/-- `CHECKSUM s` (R136). -/
def execChecksum (bs : List Byte) (s : State) : Host.Outcome State Fault Refusal :=
  .next (endWith (.byte (crc8 bs)) { s with crc := crc8 bs })

end Sys2Proof.Machine
end

