-- ==== Sys2Proof/Machine/FrameCodec.lean ====
section
/-! DEFINITION. The operations of the Frame Codec (R150 to R165). None reads or writes `CRC.R` (R22). -/

namespace Sys2Proof.Machine

open Sys2Proof

/-- The ending of `ENCODE` (R150, R151). -/
def encodeEnding : Except CodecError (List Byte) → Ending
  | .ok bs => .bytes bs
  | .error e => .codecError e

/-- `ENCODE kind, payload` (R150, R151). -/
def execEncode (kind : Byte) (payload : List Byte) (s : State) : Host.Outcome State Fault Refusal :=
  .next (endWith (encodeEnding (encodeFrame kind payload)) s)

/-- `DEC_RST` (R155); refused during a reception (R308). -/
def execDecRst (s : State) : Host.Outcome State Fault Refusal :=
  match accumulatorRefusal s with
  | some r => .refused r
  | none => .next (endWith .done { s with dec := Accumulator.empty })

/-- `DEC_PUSH b` (R156, R157); refused during a reception (R308). -/
def execDecPush (b : Byte) (s : State) : Host.Outcome State Fault Refusal :=
  match accumulatorRefusal s with
  | some r => .refused r
  | none => .next (endWith (.verdict (s.dec.push b).st (s.dec.push b).exp) { s with dec := s.dec.push b })

/-- `DEC_QRY` (R159): the verdict, and the frame when it is `COMPLETE`. -/
def execDecQry (s : State) : Host.Outcome State Fault Refusal :=
  match s.dec.st with
  | .complete =>
    match frameIn s.dec.buf with
    | none => .fault (.noValue .decBuf)
    | some f => .next (endWith (.query .complete (some f)) s)
  | st => .next (endWith (.query st none) s)

/-- The ending of `DECODE` (R160). -/
def decodeEnding : Except CodecError Frame → Ending
  | .ok f => .frame f
  | .error e => .codecError e

/-- `DECODE s` (R160): on a private accumulator, so `DEC.*` is not written. -/
def execDecode (bs : List Byte) (s : State) : Host.Outcome State Fault Refusal :=
  .next (endWith (decodeEnding (decodeFrame bs)) s)

end Sys2Proof.Machine
end

