-- ==== Sys2Proof/Machine/Sequencer.lean ====
section
/-! DEFINITION. The sequencer over `XFER.PHASE` (R183): one step per phase, each with its one link primitive (R184). -/

namespace Sys2Proof.Machine

open Sys2Proof

/-- The reply to frame byte `TX.IDX` was ACK (R188). -/
def acked (s : State) : State :=
  let t := { s with txIdx := s.txIdx + 1 }
  if t.txIdx = t.txLen then sendDone t else { t with phase := .txWrite }

/-- `TX_WRITE` (R187). -/
def stepTxWrite (s : State) : Host.Outcome State Fault Refusal :=
  match s.memRead .txBuf s.txIdx with
  | none => .fault (.noValue .txBuf)
  | some b =>
    if s.portOpen then .next { afterWrite b s with phase := .txWait }
    else .next (takeFailure .sendCmdFailure .closed (afterClosedWrite s))

/-- `DIAG` for a reply byte that is not ACK (R188, R38). -/
def replyDiag (b : Byte) : Diag := if b = Config.nack then .replyNack else .replyOther

/-- `TX_WAIT` (R188): only ACK lets the sender go on. -/
def stepTxWait (s : State) : Host.Outcome State Fault Refusal :=
  match readAnswer s with
  | .byte b =>
    if b = Config.ack then .next (acked (afterRead s))
    else .next (takeFailure .sendCmdFailure (replyDiag b) (afterRead s))
  | .timeout => .next (takeFailure .sendCmdFailure .timeout (afterRead s))
  | .closed => .next (takeFailure .sendCmdFailure .closed (afterRead s))

/-- `RX_WAIT` (R192, R196). -/
def stepRxWait (s : State) : Host.Outcome State Fault Refusal :=
  match readAnswer s with
  | .byte b => .next { afterRead s with dec := s.dec.push b, phase := .rxReply }
  | .timeout => .next (takeFailure .recvPartialFrameValidationError .timeout (afterRead s))
  | .closed => .next (takeFailure .recvPartialFrameValidationError .closed (afterRead s))

/-- `RX.NACKS` counts the acknowledgment about to be written, before the write (R190, R194), so also one whose write then
answers `CLOSED`. R36 and R200 read otherwise there; the operation's own rules are followed, DEDUCED (log 34). -/
def countNack (s : State) : State :=
  { s with rxNacks := if ackByte s.params s.dec = Config.nack then s.rxNacks + 1 else s.rxNacks }

/-- What follows the written acknowledgment, by `DEC.ST` (R194, R195, R197, R198). -/
def afterReply (s : State) : Host.Outcome State Fault Refusal :=
  match s.dec.st with
  | .incomplete => .next { s with phase := .rxWait }
  | .sofError => .next (verdictFailure .recvFrameSofError s)
  | .crcError => .next (verdictFailure .recvFrameCrcError s)
  | .complete =>
    match frameIn s.dec.buf with
    | none => .fault (.noValue .decBuf)
    | some f => .next (recvDone f s)

/-- `RX_REPLY` (R194): the acknowledgment is written before the operation ends, and a write that finds the port closed wins
over every verdict (R260). `RX.NACKS` counts before the write (R194; log 34). -/
def stepRxReply (s : State) : Host.Outcome State Fault Refusal :=
  if s.portOpen then afterReply (afterWrite (ackByte s.params s.dec) (countNack s))
  else .next (takeFailure .recvPartialFrameValidationError .closed (afterClosedWrite (countNack s)))

/-- One step of the sequencer; in `IDLE` it has none (R281) and nothing changes (log 3). -/
def sequence (s : State) : Host.Outcome State Fault Refusal :=
  match s.phase with
  | .idle => .next s
  | .txWrite => stepTxWrite s
  | .txWait => stepTxWait s
  | .rxWait => stepRxWait s
  | .rxReply => stepRxReply s

end Sys2Proof.Machine
end

