-- ==== Sys2Proof/Machine/Session.lean ====
section
/-! DEFINITION. The surrounding software, recorded: `INVOKE` (R220 to R227), `CLAIM` and `RELEASE` (R231 to R236). -/

namespace Sys2Proof.Machine

open Sys2Proof

/-! ### INVOKE -/

/-- "some required argument in args is None or missing" (R220, R222). -/
def argMissing (kind : Byte) (args : Args) : Bool :=
  (requiredArgs kind).any fun i => (args[i]?.join).isNone

/-- The stages of `INVOKE` before the link is touched (R220, R221, R259): the argument check, the guard, the encoding, and the
255-byte limit; then the request is being sent. `DIAG` is `NONE` for a stage without a sub-cause and `ENCODE` for
`ValueError` (log 18). -/
def invokeStart (kind : Byte) (args : Args) (s : State) : State :=
  let t := { s with invoke := some kind }
  if argMissing kind args then takeFailure .formatNoneError .none t
  else if Config.guardViolated kind args then takeFailure .shutdownVoltageOverSystemVal .none t
  else match encodeArgs kind args with
    | none => takeFailure .formatNoneError .none t
    | some payload =>
      match encodeFrame kind payload with
      | .error e => takeFailure e.status .encode t
      | .ok f => startSend f t

/-- `INVOKE kind, args` (R220). -/
def execInvoke (kind : Byte) (args : Args) (s : State) : Host.Outcome State Fault Refusal :=
  match transferRefusal s with
  | some r => .refused r
  | none => .next (invokeStart kind args s)

/-! ### CLAIM and RELEASE -/

/-- Whether a reply is a NACK within the window (R234). -/
def ProbeReply.countedNack (p : Params) (r : ProbeReply) : Bool :=
  r.byte == Config.nack && decide (r.atMs ≤ p.timeThresholdMs)

/-- The NACKs of a probe within the window (R234). -/
def probeNacks (p : Params) (rs : List ProbeReply) : Nat := (rs.filter (ProbeReply.countedNack p)).length

/-- Whether an ACK comes before the `k`-th further NACK within the window (R234). "Before the threshold is reached" is read of
the count `NACKS_NEEDED` and not of `TIME_THRESHOLD`, so an ACK counts at any time: a DESIGN CHOICE (log 21). -/
def ackedBefore (p : Params) : Nat → List ProbeReply → Bool
  | 0, _ => false
  | _, [] => false
  | k + 1, r :: rs =>
    if r.byte = Config.ack then true
    else if ProbeReply.countedNack p r then ackedBefore p k rs
    else ackedBefore p (k + 1) rs

/-- Whether a candidate's probe passes (R232 to R234): in the automotive role not when the port never responds (R233);
rejected when the NACKs reach `NACKS_NEEDED` with no ACK before, accepted when an ACK came, at any time, and they do not reach
it (a DESIGN CHOICE for an ACK after `TIME_THRESHOLD`); where the rules decide neither, `free` says (log 21). -/
def probePasses (p : Params) (rs : List ProbeReply) (free : Bool) : Bool :=
  if p.device = .automotive ∧ rs = [] then false
  else if p.nacksNeeded ≤ probeNacks p rs then
    if ackedBefore p p.nacksNeeded rs then free else false
  else if ackedBefore p p.nacksNeeded rs then true else free

/-- The ports the `n`-th discovery tries, in order: for the DIO card the candidates with its USB identity, whatever name the
caller gives (R231, R232, R274; log 21), for the automotive controller exactly the port the caller names (R233). -/
def portsToTry (p : Params) (n : Nat) (port : Option PortName) : List PortName :=
  match p.device, port with
  | .dioCard, _ =>
    ((Config.candidates n).filter fun c => c.vid == p.dioVid && c.pid == p.dioPid).map Candidate.name
  | .automotive, none => []
  | .automotive, some name => [name]

/-- The port the `n`-th discovery claims, the first whose probe passes (R232 to R235); none is `DiscoveryError`. -/
def discover (p : Params) (n : Nat) (port : Option PortName) : Option PortName :=
  (portsToTry p n port).find? fun name =>
    probePasses p (Config.probeReplies n name) (Config.probeUndecidedPasses n name)

/-- The ending of `CLAIM` (R231, R235). -/
def claimEnding : Option PortName → Ending
  | some name => .claimed name
  | none => .discoveryError

/-- `CLAIM` ends (R231, R235): on success `PORT.CLAIMED <- 1` and the link is bound to the port; a failure leaves it as it was.
The two channels keep their bytes (R310; log 23). -/
def claimPort (found : Option PortName) (s : State) : State :=
  { s with
    claimed := found.isSome || s.claimed
    handle := found.orElse fun _ => s.handle
    portOpen := found.isSome || s.portOpen
    ending := some (claimEnding found)
    free := s.free + 1 }

/-- `CLAIM port` (R231). -/
def execClaim (port : Option PortName) (s : State) : Host.Outcome State Fault Refusal :=
  match busyRefusal s with
  | some r => .refused r
  | none => .next (claimPort (discover s.params s.free port) s)

/-- `RELEASE` (R236): in any phase; while a transfer is in progress it is the close that the next link primitive finds
(R307). -/
def execRelease (s : State) : Host.Outcome State Fault Refusal :=
  .next (endWith .done { s with claimed := false, handle := none, portOpen := false })

end Sys2Proof.Machine
end

