-- ==== Sys2Proof/Machine/Transport.lean ====
section
/-! DEFINITION. The operations of the Byte-Level Transport (R185 to R198): the step in which each is accepted. The sequencer
(`Machine/Sequencer.lean`) carries a transfer on. -/

namespace Sys2Proof.Machine

open Sys2Proof

/-- `SEND_FRAME` refused by `ENCODE` (R186): no byte is written, `DIAG <- ENCODE`, and the failure is `ValueError`. -/
def sendNotEncoded (e : CodecError) (s : State) : State := endWith (.codecError e) { s with diag := .encode }

/-- `SEND_FRAME kind, payload` (R185, R186). -/
def execSendFrame (kind : Byte) (payload : List Byte) (s : State) : Host.Outcome State Fault Refusal :=
  match transferRefusal s with
  | some r => .refused r
  | none =>
    match encodeFrame kind payload with
    | .error e => .next (sendNotEncoded e s)
    | .ok f => .next (startSend f s)

/-- `RECV_FRAME` (R190, R191). -/
def execRecvFrame (s : State) : Host.Outcome State Fault Refusal :=
  match transferRefusal s with
  | some r => .refused r
  | none => .next (startRecv s)

end Sys2Proof.Machine
end

