-- ==== Sys2Proof/Machine/Wire.lean ====
section
/-! DEFINITION. The rows of the opcode table that are no operations: the reserved codes (R104, R254), and the wire symbols
(R90, R97, R103), which arrive in the channel towards the block and wait there for `LinkRead` (R44, R261; log 6). -/

namespace Sys2Proof.Machine

open Sys2Proof

/-- Operation code 0xE (R104): refused with no state change. -/
def execReservedE (_s : State) : Host.Outcome State Fault Refusal := .refused (.reservedCode 0xE#4)

/-- Operation code 0xF (R104): refused with no state change. -/
def execReservedF (_s : State) : Host.Outcome State Fault Refusal := .refused (.reservedCode 0xF#4)

/-- A `FRAME` on the wire (R90): its bytes arrive in the order of its fields (R62). -/
def execFrame (crc kind : Byte) (payload : List Byte) (s : State) : Host.Outcome State Fault Refusal :=
  .next (arrive (wireFrame crc kind payload) s)

/-- An `ACK` on the wire (R97). -/
def execAck (s : State) : Host.Outcome State Fault Refusal := .next (arrive [Config.ack] s)

/-- A `NACK` on the wire (R97). -/
def execNack (s : State) : Host.Outcome State Fault Refusal := .next (arrive [Config.nack] s)

/-- A `FRAME` of the example kind 0x08 on the wire (R103): a frame like any other (R93, R169). -/
def execFrameGetLowPowerEnable (crc : Byte) (payload : List Byte) (s : State) : Host.Outcome State Fault Refusal :=
  .next (arrive (wireFrame crc Config.kindGetLowPowerEnable payload) s)

/-- A `FRAME` of the example kind 0x20 on the wire (R103): a frame like any other (R93, R169). -/
def execFrameGetDi (crc : Byte) (payload : List Byte) (s : State) : Host.Outcome State Fault Refusal :=
  .next (arrive (wireFrame crc Config.kindGetDi payload) s)

end Sys2Proof.Machine
end

