-- ==== Sys2Proof/Machine/Dispatch.lean ====
section
/-! DEFINITION. One arm per row of `spec/opcode_table.json`. -/

namespace Sys2Proof.Machine

open Sys2Proof

def exec (i : Instr) (s : State) : Host.Outcome State Fault Refusal :=
  match i with
  | .crcClr => Sys2Proof.Machine.execCrcClr s
  | .crcUpd b => Sys2Proof.Machine.execCrcUpd b s
  | .crcRd => Sys2Proof.Machine.execCrcRd s
  | .checksum bs => Sys2Proof.Machine.execChecksum bs s
  | .encode kind payload => Sys2Proof.Machine.execEncode kind payload s
  | .decRst => Sys2Proof.Machine.execDecRst s
  | .decPush b => Sys2Proof.Machine.execDecPush b s
  | .decQry => Sys2Proof.Machine.execDecQry s
  | .decode bs => Sys2Proof.Machine.execDecode bs s
  | .sendFrame kind payload => Sys2Proof.Machine.execSendFrame kind payload s
  | .recvFrame => Sys2Proof.Machine.execRecvFrame s
  | .invoke kind args => Sys2Proof.Machine.execInvoke kind args s
  | .claim port => Sys2Proof.Machine.execClaim port s
  | .release => Sys2Proof.Machine.execRelease s
  | .reservedE => Sys2Proof.Machine.execReservedE s
  | .reservedF => Sys2Proof.Machine.execReservedF s
  | .frame crc kind payload => Sys2Proof.Machine.execFrame crc kind payload s
  | .ack => Sys2Proof.Machine.execAck s
  | .nack => Sys2Proof.Machine.execNack s
  | .frameGetLowPowerEnable crc payload => Sys2Proof.Machine.execFrameGetLowPowerEnable crc payload s
  | .frameGetDi crc payload => Sys2Proof.Machine.execFrameGetDi crc payload s

end Sys2Proof.Machine
end

