-- ==== Sys2Proof/Machine/Agents.lean ====
section
/-! DEFINITION. What each input does (R257, R275 to R278): the caller's operation, the wire, the sequencer, the link, the port,
reset. -/

namespace Sys2Proof.Machine

open Sys2Proof

/-- The reset event (R300, R301): every element of the block takes its reset value, an operation in progress has no result, the
link channels, the peer and the port keep what they have, and so do the parameters, the trace and the inputs (log 25). -/
def resetEvent (s : State) : State :=
  { State.reset with
    params := s.params
    inbound := s.inbound
    outbound := s.outbound
    portOpen := s.portOpen
    trace := s.trace
    inputs := s.inputs
    free := s.free }

/-- Something that is no row of the opcode table: a request with operands of the wrong shape is refused (log 4); bytes that
are no symbol arrive on the wire like any others, since the link may change, lose or insert bytes (R70). -/
def undecoded (p : Presented) (e : DecodeError) (s : State) : Host.Outcome State Fault Refusal :=
  match p with
  | .op _ => .refused (.badRequest e)
  | .wire bytes => .next (arrive bytes s)

/-- What is presented is decoded and executed. -/
def present (p : Presented) (s : State) : Host.Outcome State Fault Refusal :=
  match decode p with
  | .ok i => exec i s
  | .error e => undecoded p e s

/-- One input, in the state that no longer holds it. -/
def takeInput (i : Input) (s : State) : Host.Outcome State Fault Refusal :=
  match i with
  | .present p => present p s
  | .run => sequence s
  | .link inbound outbound => .next { s with inbound := inbound, outbound := outbound }
  | .closePort => .next { s with portOpen := false }
  | .reset => .next (resetEvent s)

end Sys2Proof.Machine
end

