-- ==== Sys2Proof/Machine/Step.lean ====
section
/-! DEFINITION. One step of the machine: the next input if one is queued, else the sequencer's own step. -/

namespace Sys2Proof.Machine

open Sys2Proof

/-- One step (R275, R276): the head of `inputs` says which agent moves; with nothing queued the sequencer does (log 1). -/
def step (s : State) : Host.Outcome State Fault Refusal :=
  match s.inputs with
  | [] => sequence s
  | i :: rest => takeInput i { s with inputs := rest }

/-- The state with a word of the opcode table presented next. The block fetches nothing (R21): a program is what the caller
presents, and this is the caller presenting one instruction of it (log 2). -/
def State.withFetchWord (s : State) (nbits w : Nat) : State :=
  { s with inputs := .present (tableWord nbits w) :: s.inputs }

end Sys2Proof.Machine
end

