-- ==== Sys2Proof/Safety.lean ====
section
/-! DEFINITION. What claims are stated in: the well-formed frame (R153), the invariant of the accumulator (R158) and of the
state, and the two transfers and the invocation as whole operations over the bytes the peer sends (R185, R190, R204,
R220). -/

namespace Sys2Proof.Machine

open Sys2Proof

/-- A byte sequence is a well-formed frame (R153). -/
def wellFormedFrame (f : List Byte) : Prop :=
  4 ≤ f.length ∧ f[0]? = some Config.sof ∧ (f[2]?.map fun len => 4 + len.toNat) = some f.length ∧
    f[1]? = some (crc8 (f.drop 2))

/-- The invariant of the accumulator, clause by clause as R158 has it. -/
structure Accumulator.Inv (a : Accumulator) : Prop where
  /-- (a) -/
  sofError_empty : a.st = .sofError → a.n = 0
  /-- (b) -/
  start_byte : 1 ≤ a.n → a.buf[0]? = some Config.sof
  /-- (c) -/
  incomplete_short : a.st = .incomplete → a.n < 3 ∨ ∃ len, a.buf[2]? = some len ∧ a.n < 4 + len.toNat
  /-- (d) -/
  judged_full : a.st = .complete ∨ a.st = .crcError → ∃ len, a.buf[2]? = some len ∧ a.n = 4 + len.toNat
  /-- (e) -/
  complete_iff : a.st = .complete ↔ wellFormedFrame a.buf
  /-- (f) -/
  running_crc : a.crc = if 2 ≤ a.n then crc8 (a.buf.drop 2) else 0x00#8
  /-- (g) -/
  fits : a.n ≤ 259

/-- The invariant of the state: the accumulator's (R158), the sender's and receiver's counts (R34 to R36, R61, R200), the
result latch (R39), and the elements of the session. -/
structure State.Inv (s : State) : Prop where
  dec : s.dec.Inv
  /-- `TX.BUF` is empty or a whole frame (R33, R34). -/
  txBuf_frame : s.txBuf = [] ∨ wellFormedFrame s.txBuf
  /-- `TX.IDX` stops at `TX.LEN` (R21, R35). -/
  txIdx_le : s.txIdx ≤ s.txLen
  /-- While sending there is a byte to send (R61). -/
  tx_more : s.phase = .txWrite ∨ s.phase = .txWait → s.txIdx < s.txLen
  /-- While a frame byte is awaited the frame is incomplete and nothing was rejected (R193, R196). -/
  rxWait_open : s.phase = .rxWait → s.dec.st = .incomplete ∧ s.rxNacks = 0
  /-- While an acknowledgment is due, the byte was expected, and so stored, unless it was a wrong start byte (R156, R193,
  R200). -/
  rxReply_judged : s.phase = .rxReply →
    s.rxNacks = 0 ∧ (s.dec.exp = true ↔ s.dec.st ≠ .sofError) ∧ (s.dec.exp = true → 1 ≤ s.dec.n)
  /-- R200. -/
  nacks_le : s.rxNacks ≤ 1
  /-- `RESULT.LEN` is 0..255 (R39). -/
  result_fits : ∀ f, s.result = some f → f.payload.length ≤ 255
  /-- While a transfer is in progress over an open port, the port is claimed (R303, R307). -/
  transfer_claimed : s.phase ≠ .idle → s.portOpen = true → s.claimed = true
  /-- A handle is held while, and only while, a port is claimed (R40). -/
  handle_claimed : s.handle.isSome = s.claimed
  /-- An invocation is in progress only while one of its transfers is (R41, R220). -/
  invoke_busy : s.phase = .idle → s.invoke = none

/-- `k` steps of the machine, stopping at the first fault or refusal. -/
def runSteps : Nat → State → Host.Outcome State Fault Refusal
  | 0, s => .next s
  | k + 1, s =>
    match step s with
    | .next t => runSteps k t
    | .fault r => .fault r
    | .refused r => .refused r

/-! ### Whole transfers over an open port

In these the port stays open, no other agent moves, and `inbound` is all the peer sends; a read that finds nothing
answers `TIMEOUT`. -/

/-- The outcome of a send: how many bytes were acknowledged, the diagnostic of a failure, the bytes written, what is left in
the channel, and the events. -/
structure SendRun where
  idx : Nat
  failure : Option Diag
  written : List Byte
  rest : List Byte
  events : List LinkEvent
  deriving DecidableEq, Repr

/-- The loop of `SEND_FRAME` (R185) over the frame bytes not yet sent and the replies. -/
def sendRun (role : Role) : List Byte → List Byte → SendRun
  | [], inbound => ⟨0, none, [], inbound, []⟩
  | b :: _, [] => ⟨0, some .timeout, [b], [], [⟨writeDir role, .byte b⟩, ⟨readDir role, .timeout⟩]⟩
  | b :: f, r :: inbound =>
    if r = Config.ack then
      let t := sendRun role f inbound
      ⟨t.idx + 1, t.failure, b :: t.written, t.rest, ⟨writeDir role, .byte b⟩ :: ⟨readDir role, .byte r⟩ :: t.events⟩
    else ⟨0, some (replyDiag r), [b], inbound, [⟨writeDir role, .byte b⟩, ⟨readDir role, .byte r⟩]⟩

/-- The status of a send (R185). -/
def SendRun.status (r : SendRun) : Status := if r.failure.isSome then .sendCmdFailure else .success

/-- How many of the peer's bytes `RECV_FRAME` reads (R195 to R198): one when the first is no start byte, the whole frame when
it is there, all of them when it is not. -/
def recvReads (inbound : List Byte) : Nat :=
  match decodeFrame inbound with
  | .ok f => 4 + f.payload.length
  | .error .sofError => 1
  | .error .crcError => 4 + ((inbound[2]?.map BitVec.toNat).getD 0)
  | .error _ => inbound.length

/-- The acknowledgments `RECV_FRAME` writes (R193), one for each byte read. -/
def recvReplies (policy : LastBytePolicy) (inbound : List Byte) : List Byte :=
  match decodeFrame inbound with
  | .error .sofError => [Config.nack]
  | .error .crcError =>
    List.replicate (recvReads inbound - 1) Config.ack ++
      [if policy = .crcGated then Config.nack else Config.ack]
  | _ => List.replicate (recvReads inbound) Config.ack

/-- `INVOKE` as one operation (R220), with the default `RX_DESYNC_POLICY`: the pair it returns, over the peer's bytes. -/
def invokeOutcome (role : Role) (kind : Byte) (args : Args) (inbound : List Byte) : Status × Option Value :=
  if argMissing kind args then (.formatNoneError, none)
  else if Config.guardViolated kind args then (.shutdownVoltageOverSystemVal, none)
  else match encodeArgs kind args with
    | none => (.formatNoneError, none)
    | some payload =>
      if 255 < payload.length then (.formatNoneError, none)
      else
        let sent := sendRun role (frameBytes kind payload) inbound
        if sent.failure.isSome then (.sendCmdFailure, none)
        else match decodeFrame sent.rest with
          | .error e => (e.status, none)
          | .ok f =>
            if f.kind ≠ kind ∨ f.payload.length ≠ responseLen kind then (.recvUnexpectedPayloadError, none)
            else if inValidRange kind (decodeResult kind f.payload) then
              (.success, some (decodeResult kind f.payload))
            else (.recvFrameValueError, none)

end Sys2Proof.Machine
end

