-- ==== Sys2Proof/Certificates/Slice0/Obligations.lean ====
section
/-! DEFINITION. The statements for the provers, from the numbered rules of the spec. `next t` in a statement is the next state
itself, so a statement that gives it states its frame too: every element it does not write is the element of `s`. -/

open Sys2Proof Sys2Proof.Machine

/-! ### Reset -/

/-- The table of R46: every element of the block at its reset value; a buffer and the result hold no value. -/
def Obligations.ResetStateHoldsTheTableOfR46 : Prop :=
  State.reset.crc = 0x00#8 ∧ State.reset.dec.n = 0 ∧ State.reset.dec.crc = 0x00#8 ∧
  State.reset.dec.st = .incomplete ∧ State.reset.dec.exp = false ∧ State.reset.phase = .idle ∧
  State.reset.txLen = 0 ∧ State.reset.txIdx = 0 ∧ State.reset.rxNacks = 0 ∧
  State.reset.statusReg = 0x00#8 ∧ State.reset.diag = .none ∧ State.reset.resultValid = false ∧
  State.reset.claimed = false ∧
  (∀ space addr, State.reset.memRead space addr = none) ∧ State.reset.result = none

/-- R300 and R301: in any state the reset event gives every element of the block its reset value, abandons a transfer without
a status, and leaves the link channels as they are. -/
def Obligations.ResetEventGivesTheResetValues : Prop :=
  ∀ (s : State) (rest : List Input), s.inputs = .reset :: rest →
    ∃ t, step s = .next t ∧
      t.crc = 0x00#8 ∧ t.dec.n = 0 ∧ t.dec.crc = 0x00#8 ∧ t.dec.st = .incomplete ∧ t.dec.exp = false ∧
      t.phase = .idle ∧ t.txLen = 0 ∧ t.txIdx = 0 ∧ t.rxNacks = 0 ∧ t.statusReg = 0x00#8 ∧ t.diag = .none ∧
      t.resultValid = false ∧ t.claimed = false ∧ t.ending = none ∧
      (∀ space addr, t.memRead space addr = none) ∧
      t.inbound = s.inbound ∧ t.outbound = s.outbound

/-! ### Checksum Unit -/

/-- R133. -/
def Obligations.CrcClrClearsTheRegister : Prop :=
  ∀ s : State,
    exec .crcClr s = .next { s with crc := 0x00#8, ending := some .done } ∧
    encode .crcClr = .op ⟨0x0#4, []⟩

/-- R134. -/
def Obligations.CrcUpdFoldsOneByte : Prop :=
  ∀ (b : Byte) (s : State),
    exec (.crcUpd b) s = .next { s with crc := crc8Step s.crc b, ending := some .done } ∧
    encode (.crcUpd b) = .op ⟨0x1#4, [.byte b]⟩

/-- R135. -/
def Obligations.CrcRdReturnsTheRegister : Prop :=
  ∀ s : State,
    exec .crcRd s = .next { s with ending := some (.byte s.crc) } ∧ encode .crcRd = .op ⟨0x2#4, []⟩

/-- R136: `CHECKSUM` is `CRC_CLR`, one `CRC_UPD` a byte in order, `CRC_RD`, and so leaves the result in `CRC.R`. -/
def Obligations.ChecksumIsTheStreamedChecksum : Prop :=
  ∀ (bs : List Byte) (s : State),
    exec (.checksum bs) s =
      .next { s with crc := bs.foldl crc8Step 0x00#8, ending := some (.byte (bs.foldl crc8Step 0x00#8)) } ∧
    encode (.checksum bs) = .op ⟨0x3#4, [.bytes bs]⟩

/-- The eight steps of R132 on a 9-bit value: shift, and subtract the 9-bit generator 0x107 when bit 8 is set; and the table
form of R137: the step depends on the register and the byte only through their exclusive or. -/
def Obligations.CrcStepIsNineBitReduction : Prop :=
  ∀ r b : Byte,
    let nine : Nat → Nat := fun v => if 0x100 ≤ 2 * v then (2 * v) ^^^ 0x107 else 2 * v
    (crc8Step r b).toNat = nine (nine (nine (nine (nine (nine (nine (nine (r.toNat ^^^ b.toNat)))))))) ∧
    crc8Step r b = crc8Step 0x00#8 (r ^^^ b)

/-- Laws (a) to (e) of R139. -/
def Obligations.ChecksumLinearityAndResidue : Prop :=
  crc8 [] = 0x00#8 ∧
  (∀ s : List Byte, crc8 (0x00#8 :: s) = crc8 s) ∧
  (∀ a b : List Byte, a.length = b.length → crc8 (List.zipWith (· ^^^ ·) a b) = crc8 a ^^^ crc8 b) ∧
  (∀ s t : List Byte, crc8 (s ++ t) = t.foldl crc8Step (crc8 s)) ∧
  (∀ s : List Byte, crc8 (s ++ [crc8 s]) = 0x00#8)

/-- Laws (f) and (g) of R139: one flipped bit, or a change within eight consecutive bit positions, in one byte or across two,
changes the checksum. -/
def Obligations.ChecksumDetectsBursts : Prop :=
  (∀ (front back : List Byte) (b e : Byte), e ≠ 0 →
    crc8 (front ++ (b ^^^ e) :: back) ≠ crc8 (front ++ b :: back)) ∧
  (∀ (front back : List Byte) (b c e : Byte) (k : Nat), e ≠ 0 → k < 8 →
    let burst : BitVec 16 := e.zeroExtend 16 <<< k
    crc8 (front ++ (b ^^^ (burst >>> 8).truncate 8) :: (c ^^^ burst.truncate 8) :: back) ≠
      crc8 (front ++ b :: c :: back))

/-! ### Frame Codec -/

/-- R150 and R151: the frame of a payload of at most 255 bytes, `ValueError` above; nothing but the returned value changes. -/
def Obligations.EncodeBuildsTheFrame : Prop :=
  ∀ (kind : Byte) (payload : List Byte) (s : State),
    encode (.encode kind payload) = .op ⟨0x4#4, [.byte kind, .bytes payload]⟩ ∧
    exec (.encode kind payload) s = .next { s with
      ending := some (
        if 255 < payload.length then .codecError .valueError
        else .bytes (0x01#8 :: crc8 (BitVec.ofNat 8 payload.length :: kind :: payload) ::
          BitVec.ofNat 8 payload.length :: kind :: payload)) }

/-- R152: the output has `4 + len(payload)` bytes, is well-formed, and determines kind and payload. -/
def Obligations.EncodedFramesAreWellFormedAndDistinct : Prop :=
  (∀ (kind : Byte) (payload f : List Byte), encodeFrame kind payload = .ok f →
    f.length = 4 + payload.length ∧ wellFormedFrame f) ∧
  (∀ (k k' : Byte) (p p' f : List Byte), encodeFrame k p = .ok f → encodeFrame k' p' = .ok f → k = k' ∧ p = p')

/-- R166: decoding an encoded frame gives back kind and payload. -/
def Obligations.DecodeInvertsEncode : Prop :=
  ∀ (kind : Byte) (payload : List Byte), payload.length ≤ 255 → ∀ s : State,
    ∃ f, exec (.encode kind payload) s = .next { s with ending := some (.bytes f) } ∧
      exec (.decode f) s = .next { s with ending := some (.frame ⟨kind, payload⟩) }

/-- R155. -/
def Obligations.DecRstEmptiesTheAccumulator : Prop :=
  ∀ s : State,
    encode .decRst = .op ⟨0x5#4, []⟩ ∧
    (s.phase ≠ .rxWait → s.phase ≠ .rxReply →
      exec .decRst s = .next { s with dec := ⟨[], 0x00#8, .incomplete, false⟩, ending := some .done })

/-- R156, branch by branch, and R157: a terminal accumulator, a wrong start byte, the start byte, and a later byte with the
verdict of the last one. -/
def Obligations.DecPushFollowsItsPseudocode : Prop :=
  ∀ (b : Byte) (s : State), s.phase ≠ .rxWait → s.phase ≠ .rxReply →
    ∃ a : Accumulator,
      exec (.decPush b) s = .next { s with dec := a, ending := some (.verdict a.st a.exp) } ∧
      encode (.decPush b) = .op ⟨0x6#4, [.byte b]⟩ ∧
      (s.dec.st ≠ .incomplete → a = { s.dec with exp := false }) ∧
      (s.dec.st = .incomplete → s.dec.n = 0 → b ≠ 0x01#8 → a = { s.dec with st := .sofError, exp := false }) ∧
      (s.dec.st = .incomplete → s.dec.n = 0 → b = 0x01#8 → a = ⟨[b], s.dec.crc, .incomplete, true⟩) ∧
      (s.dec.st = .incomplete → 1 ≤ s.dec.n →
        a.buf = s.dec.buf ++ [b] ∧ a.exp = true ∧
        a.crc = (if 2 ≤ s.dec.n then crc8Step s.dec.crc b else s.dec.crc) ∧
        (∀ len, 4 ≤ a.n → a.buf[2]? = some len → a.n = 4 + len.toNat →
          a.st = if a.buf[1]? = some a.crc then .complete else .crcError) ∧
        (a.n < 4 ∨ (∀ len, a.buf[2]? = some len → a.n ≠ 4 + len.toNat) → a.st = .incomplete))

/-- R159: the verdict, and the frame when it is `COMPLETE`; a `COMPLETE` verdict over a buffer that holds no frame, which R158
rules out, is the model's fault of R47. -/
def Obligations.DecQryReturnsVerdictAndFrame : Prop :=
  ∀ s : State,
    encode .decQry = .op ⟨0x7#4, []⟩ ∧
    (s.dec.st ≠ .complete → exec .decQry s = .next { s with ending := some (.query s.dec.st none) }) ∧
    (∀ start crc len kind tail, s.dec.st = .complete → s.dec.buf = start :: crc :: len :: kind :: tail →
      exec .decQry s =
        if tail.length < len.toNat then .fault (.noValue .decBuf)
        else .next { s with ending := some (.query .complete (some ⟨kind, tail.take len.toNat⟩)) }) ∧
    (s.dec.st = .complete → s.dec.n < 4 → exec .decQry s = .fault (.noValue .decBuf))

/-- R160 with the order of R161 and the short inputs of R162, by the offsets of the sequence. -/
def Obligations.DecodeJudgesInOrder : Prop :=
  ∀ (bs : List Byte) (s : State),
    encode (.decode bs) = .op ⟨0x8#4, [.bytes bs]⟩ ∧
    ∃ e, exec (.decode bs) s = .next { s with ending := some e } ∧
      (bs = [] → e = .codecError .partialFrameError) ∧
      (∀ b, bs[0]? = some b → b ≠ 0x01#8 → e = .codecError .sofError) ∧
      (bs[0]? = some 0x01#8 → bs.length < 3 → e = .codecError .partialFrameError) ∧
      (∀ len, bs[0]? = some 0x01#8 → bs[2]? = some len → bs.length < 4 + len.toNat →
        e = .codecError .partialFrameError) ∧
      (∀ len crc kind, bs[0]? = some 0x01#8 → bs[2]? = some len → 4 + len.toNat ≤ bs.length →
        bs[1]? = some crc → bs[3]? = some kind →
        e = if crc8 ((bs.drop 2).take (2 + len.toNat)) ≠ crc then .codecError .crcError
          else .frame ⟨kind, (bs.drop 4).take len.toNat⟩)

/-- R164: `DECODE` and the accumulator, run on the same bytes until its first terminal verdict, agree. -/
def Obligations.DecodeAgreesWithTheAccumulator : Prop :=
  ∀ bs : List Byte,
    match (Accumulator.empty.pushAll bs).st with
    | .complete => ∃ f, frameIn (Accumulator.empty.pushAll bs).buf = some f ∧ decodeFrame bs = .ok f
    | .sofError => decodeFrame bs = .error .sofError
    | .crcError => decodeFrame bs = .error .crcError
    | .incomplete => decodeFrame bs = .error .partialFrameError

/-- R161: a sequence cut short is incomplete and never invalid, and a wrong first byte is `SofError` whatever follows. -/
def Obligations.TruncatedIsIncompleteNeverInvalid : Prop :=
  (∀ (kind : Byte) (payload : List Byte) (n : Nat), payload.length ≤ 255 → n < 4 + payload.length →
    decodeFrame ((frameBytes kind payload).take n) = .error .partialFrameError) ∧
  (∀ (b : Byte) (later : List Byte), b ≠ 0x01#8 → decodeFrame (b :: later) = .error .sofError)

/-- R167: one flipped bit in the start byte is `SofError`, in the checksum, the kind or the payload `CrcError`. -/
def Obligations.OneFlippedBitOutsideLengthIsCaught : Prop :=
  ∀ (kind : Byte) (payload : List Byte) (i j : Nat) (b : Byte), payload.length ≤ 255 → j < 8 →
    (frameBytes kind payload)[i]? = some b →
    (i = 0 → decodeFrame ((frameBytes kind payload).set i (b ^^^ (1#8 <<< j))) = .error .sofError) ∧
    (i = 1 ∨ 3 ≤ i → decodeFrame ((frameBytes kind payload).set i (b ^^^ (1#8 <<< j))) = .error .crcError)

/-- R168: a `length` made larger leaves the frame incomplete; made smaller it may even succeed. -/
def Obligations.ChangedLengthIsNotAlwaysCaught : Prop :=
  (∀ (kind : Byte) (payload : List Byte) (len : Byte), payload.length < len.toNat →
    decodeFrame ((frameBytes kind payload).set 2 len) = .error .partialFrameError) ∧
  frameBytes 0x20#8 [0xD5#8] = [0x01#8, 0xE0#8, 0x01#8, 0x20#8, 0xD5#8] ∧
  decodeFrame [0x01#8, 0xE0#8, 0x00#8, 0x20#8, 0xD5#8] = .ok ⟨0x20#8, []⟩

/-! ### Accepting a transfer, and refusals -/

/-- R186: accepted in `IDLE` with a port claimed, the frame is loaded; a payload above 255 bytes is `ValueError`. -/
def Obligations.SendFrameIsAccepted : Prop :=
  ∀ (kind : Byte) (payload : List Byte) (s : State), s.phase = .idle → s.claimed = true →
    encode (.sendFrame kind payload) = .op ⟨0x9#4, [.byte kind, .bytes payload]⟩ ∧
    exec (.sendFrame kind payload) s =
      if 255 < payload.length then .next { s with diag := .encode, ending := some (.codecError .valueError) }
      else .next { s with txBuf := frameBytes kind payload, txIdx := 0, phase := .txWrite }

/-- R191: accepted in `IDLE` with a port claimed. -/
def Obligations.RecvFrameIsAccepted : Prop :=
  ∀ s : State, s.phase = .idle → s.claimed = true →
    encode .recvFrame = .op ⟨0xA#4, []⟩ ∧
    exec .recvFrame s = .next { s with
      dec := ⟨[], 0x00#8, .incomplete, false⟩, rxNacks := 0, result := none, phase := .rxWait }

/-- R303: without a port no transfer is accepted. R308: during a transfer the operations that use the link are refused, and
during a reception those that write the accumulator. The names of the refusals are the model's (log 27). -/
def Obligations.ForbiddenUsesAreRefused : Prop :=
  ∀ (s : State) (kind b : Byte) (payload : List Byte) (args : Args) (port : Option PortName),
    (s.phase = .idle → s.claimed = false →
      exec (.sendFrame kind payload) s = .refused .noPort ∧ exec .recvFrame s = .refused .noPort ∧
      exec (.invoke kind args) s = .refused .noPort) ∧
    (s.phase ≠ .idle →
      exec (.sendFrame kind payload) s = .refused .busy ∧ exec .recvFrame s = .refused .busy ∧
      exec (.invoke kind args) s = .refused .busy ∧ exec (.claim port) s = .refused .busy) ∧
    (s.phase = .rxWait ∨ s.phase = .rxReply →
      exec .decRst s = .refused .busy ∧ exec (.decPush b) s = .refused .busy)

/-- R309: the operations that use neither the link nor the accumulator's writes run in any phase and disturb no transfer. -/
def Obligations.FreeOperationsDisturbNoTransfer : Prop :=
  ∀ (s : State) (b kind : Byte) (bs payload : List Byte) (i : Instr),
    i ∈ [Instr.crcClr, .crcUpd b, .crcRd, .checksum bs, .encode kind payload, .decode bs] →
    ∃ t, exec i s = .next t ∧ t.dec = s.dec ∧ t.txBuf = s.txBuf ∧ t.txIdx = s.txIdx ∧ t.phase = s.phase ∧
      t.rxNacks = s.rxNacks ∧ t.status = s.status ∧ t.diag = s.diag ∧ t.result = s.result ∧
      t.invoke = s.invoke ∧ t.inbound = s.inbound ∧ t.outbound = s.outbound ∧ t.trace = s.trace

/-- R104 and R254 (c): the reserved codes are refused in every state. -/
def Obligations.ReservedCodesAreRefused : Prop :=
  ∀ (s : State) (operands : List Operand),
    decode (.op ⟨0xE#4, operands⟩) = .ok .reservedE ∧ decode (.op ⟨0xF#4, operands⟩) = .ok .reservedF ∧
    exec .reservedE s = .refused (.reservedCode 0xE#4) ∧ exec .reservedF s = .refused (.reservedCode 0xF#4)

/-! ### Session and discovery -/

/-- The stages of `INVOKE` before the link is used (R220 to R223, R259): -9 when a required argument is absent or `None`, then
-10, then -9 for arguments that do not encode or a payload above 255 bytes, all with no link activity; then the request is
loaded. The value of `DIAG` is the model's (log 18). The requests of the two example kinds are those of R224. -/
def Obligations.InvokeChecksBeforeItSends : Prop :=
  ∀ (kind : Byte) (args : Args) (s : State), s.phase = .idle → s.claimed = true →
    let failed : Status → Diag → State := fun st d =>
      { s with status := st, diag := d, ending := some (.invoked st none), invoke := none }
    encode (.invoke kind args) = .op ⟨0xB#4, [.byte kind, .args args]⟩ ∧
    exec (.invoke kind args) s = .next (
      if argMissing kind args then failed .formatNoneError .none
      else if Config.guardViolated kind args then failed .shutdownVoltageOverSystemVal .none
      else match encodeArgs kind args with
        | none => failed .formatNoneError .none
        | some payload =>
          if 255 < payload.length then failed .formatNoneError .encode
          else { s with
            invoke := some kind, txBuf := frameBytes kind payload, txIdx := 0, phase := .txWrite }) ∧
    (argMissing kind args = true ↔ ∃ i ∈ requiredArgs kind, args[i]? = none ∨ args[i]? = some none) ∧
    requiredArgs 0x20#8 = [0] ∧ requiredArgs 0x08#8 = [] ∧
    encodeArgs 0x08#8 [] = some [] ∧ (∀ pin : Byte, encodeArgs 0x20#8 [some [pin]] = some [pin])

/-- `CLAIM` in `IDLE` (R231, R235): with the first port to try whose probe passes it claims and opens it, with none it is
`DiscoveryError` and `PORT.CLAIMED` stays. The ports to try are, for the DIO card, the enumerated candidates with the configured
USB identity, in order (R232, R107, R274), and for the automotive controller exactly the named port, none without a name (R233).
The candidates and the probe are left open (log 21). That a claim which fails while a port is held keeps it, and that `CLAIM`
with its probe leaves both channels and the trace, are the model's choices (log 22, log 23). -/
def Obligations.ClaimEndsWithPortOrDiscoveryError : Prop :=
  ∀ (port : Option PortName) (s : State), s.phase = .idle →
    encode (.claim port) = .op ⟨0xC#4, [.port port]⟩ ∧
    ∃ ports : List PortName,
      (s.params.device = .dioCard → ports =
        ((Config.candidates s.free).filter fun c => c.vid = s.params.dioVid ∧ c.pid = s.params.dioPid).map (·.name)) ∧
      (s.params.device = .automotive → ports = port.toList) ∧
      exec (.claim port) s = .next (
        match ports.find? fun name =>
          probePasses s.params (Config.probeReplies s.free name) (Config.probeUndecidedPasses s.free name) with
        | some name => { s with
            claimed := true, handle := some name, portOpen := true, ending := some (.claimed name), free := s.free + 1 }
        | none => { s with ending := some .discoveryError, free := s.free + 1 })

/-- R234: a candidate is rejected when, with no ACK so far, the NACK bytes (0x07) read within `TIME_THRESHOLD` of the start of
its probe reach `NACKS_NEEDED`, whatever follows, an ACK included; it passes when it sends an ACK (0x0D) and they never reach
it. That "before the threshold is reached" speaks of the count alone, so that an ACK after `TIME_THRESHOLD` serves too, is the
model's choice (log 21). R233: an automotive port that never responds is not claimed. All whatever the open verdict is. -/
def Obligations.ProbeCountsNacksInTheWindow : Prop :=
  ∀ (p : Params) (free : Bool),
    let nacks : List ProbeReply → Nat := fun rs =>
      (rs.filter fun r => r.byte = 0x07#8 ∧ r.atMs ≤ p.timeThresholdMs).length
    (∀ front back : List ProbeReply, p.nacksNeeded ≤ nacks front → (∀ r ∈ front, r.byte ≠ 0x0D#8) →
      probePasses p (front ++ back) free = false) ∧
    (∀ rs : List ProbeReply, nacks rs < p.nacksNeeded → (∃ r ∈ rs, r.byte = 0x0D#8) →
      probePasses p rs free = true) ∧
    (p.device = .automotive → probePasses p [] free = false)

/-- R236: `RELEASE` clears `PORT.CLAIMED` and gives the handle back, in any phase. -/
def Obligations.ReleaseGivesThePortBack : Prop :=
  ∀ s : State,
    encode .release = .op ⟨0xD#4, []⟩ ∧
    exec .release s = .next { s with claimed := false, handle := none, portOpen := false, ending := some .done }

/-- R307, R181 and R318: after a `RELEASE`, or after the port is otherwise closed or reset, during a transfer the next link
primitive fails it, -1 when sending and -7 when receiving, with `DIAG = CLOSED` and no byte read or written; and nothing but a
`CLAIM` in `IDLE` opens a closed port, so no close goes unseen (log 8). -/
def Obligations.ReleaseAbandonsTheTransfer : Prop :=
  (∀ s : State, s.inputs = [] → s.Inv → s.phase ≠ .idle →
    let abandoned : State → Prop := fun t => t.phase = s.phase ∧ ∃ u, step t = .next u ∧ u.phase = .idle ∧
      u.status = (if s.phase = .txWrite ∨ s.phase = .txWait then .sendCmdFailure
        else .recvPartialFrameValidationError) ∧
      u.diag = .closed ∧ u.outbound = s.outbound ∧ u.inbound = s.inbound
    (∃ t, exec .release s = .next t ∧ t.claimed = false ∧ abandoned t) ∧
    (∃ t, step { s with inputs := [.closePort] } = .next t ∧ t.claimed = s.claimed ∧ abandoned t)) ∧
  (∀ s t : State, step s = .next t → s.portOpen = false →
    (∀ p rest port, s.inputs = .present p :: rest → decode p = .ok (.claim port) → s.phase ≠ .idle) →
    t.portOpen = false)

/-! ### Wire symbols -/

/-- A symbol on the wire arrives behind the bytes that wait in the channel, field by field, and nothing else changes; that
arrival is what a symbol does is the model's reading (log 6). -/
def Obligations.WireSymbolsArriveInOrder : Prop :=
  ∀ (crc kind : Byte) (payload : List Byte) (s : State),
    exec (.frame crc kind payload) s = .next { s with
      inbound := s.inbound ++ ([0x01#8, crc, BitVec.ofNat 8 payload.length, kind] ++ payload) } ∧
    exec .ack s = .next { s with inbound := s.inbound ++ [0x0D#8] } ∧
    exec .nack s = .next { s with inbound := s.inbound ++ [0x07#8] } ∧
    exec (.frameGetLowPowerEnable crc payload) s = .next { s with
      inbound := s.inbound ++ ([0x01#8, crc, BitVec.ofNat 8 payload.length, 0x08#8] ++ payload) } ∧
    exec (.frameGetDi crc payload) s = .next { s with
      inbound := s.inbound ++ ([0x01#8, crc, BitVec.ofNat 8 payload.length, 0x20#8] ++ payload) }

/-! ### The sequencer -/

/-- R187, `TX_WRITE`: the byte at `TX.IDX` is written; a closed port fails the send with -1. -/
def Obligations.TxWriteWritesOneByte : Prop :=
  ∀ (s : State) (b : Byte), s.inputs = [] → s.phase = .txWrite → s.memRead .txBuf s.txIdx = some b →
    step s =
      if s.portOpen then .next { s with
        phase := .txWait, outbound := s.outbound ++ [b]
        trace := s.trace ++ [LinkEvent.mk (writeDir s.params.role) (.byte b)] }
      else .next { s with
        phase := .idle, status := .sendCmdFailure, diag := .closed
        ending := some (if s.invoke = none then .failed .sendCmdFailure else .invoked .sendCmdFailure none)
        invoke := none
        trace := s.trace ++ [LinkEvent.mk (writeDir s.params.role) .closed] }

/-- R188, `TX_WAIT` with the reply ACK: the next byte is due, or the send ends ok; the send of an invocation goes on with
`RECV_FRAME` (R220, R221), in the same step by the model's choice (log 17). -/
def Obligations.TxWaitGoesOnWithAck : Prop :=
  ∀ (s : State) (later : List Byte), s.inputs = [] → s.phase = .txWait → s.portOpen = true →
    s.inbound = 0x0D#8 :: later →
    step s = .next (
      let t := { s with
        txIdx := s.txIdx + 1, inbound := later
        trace := s.trace ++ [LinkEvent.mk (readDir s.params.role) (.byte 0x0D#8)] }
      if s.txIdx + 1 = s.txLen then
        let sent := { t with status := .success, diag := .none }
        match s.invoke with
        | none => { sent with phase := .idle, ending := some .sent }
        | some _ => { sent with
            phase := .rxWait, dec := ⟨[], 0x00#8, .incomplete, false⟩, rxNacks := 0, result := none }
      else { t with phase := .txWrite })

/-- R188, `TX_WAIT` with every other answer: NACK, another byte, nothing, or a closed port end the send with -1. -/
def Obligations.TxWaitFailsWithoutAck : Prop :=
  ∀ s : State, s.inputs = [] → s.phase = .txWait → ¬ (s.portOpen = true ∧ s.inbound.head? = some 0x0D#8) →
    ∃ m d, step s = .next { s with
        phase := .idle, status := .sendCmdFailure, diag := d
        ending := some (if s.invoke = none then .failed .sendCmdFailure else .invoked .sendCmdFailure none)
        invoke := none
        inbound := if s.portOpen = true then s.inbound.tail else s.inbound
        trace := s.trace ++ [LinkEvent.mk (readDir s.params.role) m] } ∧
      (s.portOpen = false → m = .closed ∧ d = .closed) ∧
      (s.portOpen = true → s.inbound = [] → m = .timeout ∧ d = .timeout) ∧
      (∀ b, s.portOpen = true → s.inbound.head? = some b →
        m = .byte b ∧ d = if b = 0x07#8 then .replyNack else .replyOther)

/-- R192, `RX_WAIT`: a byte is pushed and judged; a timeout or a closed port fails the reception with -7. -/
def Obligations.RxWaitReadsOneByte : Prop :=
  ∀ s : State, s.inputs = [] → s.phase = .rxWait →
    let failed : Mark → Diag → State := fun m d => { s with
      phase := .idle, status := .recvPartialFrameValidationError, diag := d, result := none
      ending := some (if s.invoke = none then .failed .recvPartialFrameValidationError
        else .invoked .recvPartialFrameValidationError none)
      invoke := none
      trace := s.trace ++ [LinkEvent.mk (readDir s.params.role) m] }
    (s.portOpen = false → step s = .next (failed .closed .closed)) ∧
    (s.portOpen = true → s.inbound = [] → step s = .next (failed .timeout .timeout)) ∧
    (∀ b later, s.portOpen = true → s.inbound = b :: later → step s = .next { s with
      phase := .rxReply, dec := s.dec.push b, inbound := later, trace := s.trace ++ [LinkEvent.mk (readDir s.params.role) (.byte b)] })

/-- R193 and R194 while the frame is incomplete: an expected byte is answered ACK, another NACK and counted, and the next byte
is awaited. -/
def Obligations.RxReplyAcknowledgesAndGoesOn : Prop :=
  ∀ s : State, s.inputs = [] → s.phase = .rxReply → s.portOpen = true → s.dec.st = .incomplete →
    let a : Byte := if s.dec.exp = true then 0x0D#8 else 0x07#8
    step s = .next { s with
      phase := .rxWait, rxNacks := if s.dec.exp = true then s.rxNacks else s.rxNacks + 1
      outbound := s.outbound ++ [a]
      trace := s.trace ++ [LinkEvent.mk (writeDir s.params.role) (.byte a)] }

/-- R195, with `RX_DESYNC_POLICY = never`: after a wrong start byte the block writes NACK, then fails with -6. -/
def Obligations.WrongStartByteIsNackedThenFails : Prop :=
  ∀ s : State, s.inputs = [] → s.phase = .rxReply → s.portOpen = true → s.dec.st = .sofError → s.dec.exp = false →
    s.params.desync = .never →
    step s = .next { s with
      phase := .idle, status := .recvFrameSofError, diag := .none, result := none, invoke := none
      ending := some (if s.invoke = none then .failed .recvFrameSofError else .invoked .recvFrameSofError none)
      rxNacks := s.rxNacks + 1
      outbound := s.outbound ++ [0x07#8]
      trace := s.trace ++ [LinkEvent.mk (writeDir s.params.role) (.byte 0x07#8)] }

/-- R193 and R197, with `RX_DESYNC_POLICY = never`, or with any policy when no NACK was written: the last byte of a frame whose
checksum fails is answered ACK under `position_only` and NACK under `crc_gated`, then the reception fails with -4. -/
def Obligations.ChecksumFailureEndsTheReception : Prop :=
  ∀ s : State, s.inputs = [] → s.phase = .rxReply → s.portOpen = true → s.dec.st = .crcError → s.dec.exp = true →
    s.params.desync = .never ∨ (s.params.lastByte = .positionOnly ∧ s.rxNacks = 0) →
    let a : Byte := if s.params.lastByte = .crcGated then 0x07#8 else 0x0D#8
    step s = .next { s with
      phase := .idle, status := .recvFrameCrcError, diag := .none, result := none, invoke := none
      ending := some (if s.invoke = none then .failed .recvFrameCrcError else .invoked .recvFrameCrcError none)
      rxNacks := if s.params.lastByte = .crcGated then s.rxNacks + 1 else s.rxNacks
      outbound := s.outbound ++ [a]
      trace := s.trace ++ [LinkEvent.mk (writeDir s.params.role) (.byte a)] }

/-- R199: under `any_after_nack` a reception that wrote a NACK for a wrong start byte ends with -6, -3 or -5, whichever the
environment chooses, and gives no result. That a failing checksum answered NACK under `crc_gated` ends so too is the model's
choice (log 15): R193 says of that policy that the status is still -4, R199 speaks of every reception that wrote a NACK. -/
def Obligations.DesyncStatusAfterNack : Prop :=
  ∀ s : State, s.inputs = [] → s.phase = .rxReply → s.portOpen = true → s.params.desync = .anyAfterNack →
    (s.dec.st = .sofError ∧ s.dec.exp = false) ∨
      (s.dec.st = .crcError ∧ s.dec.exp = true ∧ s.params.lastByte = .crcGated) →
    ∃ t, step s = .next t ∧ t.phase = .idle ∧ t.result = none ∧ t.rxNacks = s.rxNacks + 1 ∧ t.dec = s.dec ∧
      t.inbound = s.inbound ∧ t.outbound = s.outbound ++ [0x07#8] ∧
      t.trace = s.trace ++ [LinkEvent.mk (writeDir s.params.role) (.byte 0x07#8)] ∧
      t.ending = some (if s.invoke = none then .failed t.status else .invoked t.status none) ∧
      (t.status = .recvFrameSofError ∨ t.status = .recvFrameNackError ∨ t.status = .recvFrameAckError)

/-- R198, of a `RECV_FRAME` that the caller issued: the last byte is answered ACK, the frame is latched, and the reception ends
ok. -/
def Obligations.CompleteFrameIsLatched : Prop :=
  ∀ (s : State) (f : Frame), s.inputs = [] → s.phase = .rxReply → s.portOpen = true → s.dec.st = .complete →
    s.dec.exp = true → frameIn s.dec.buf = some f → s.invoke = none →
    step s = .next { s with
      phase := .idle, status := .success, diag := .none, result := some f, ending := some (.frame f)
      outbound := s.outbound ++ [0x0D#8]
      trace := s.trace ++ [LinkEvent.mk (writeDir s.params.role) (.byte 0x0D#8)] }

/-- R225, R226 and R227 at the end of an `INVOKE`: a frame of another kind or length is -2, a value out of range -8, else the
invocation returns the decoded value; the latched frame stays. The response length of the two example kinds and the value of
`GET_DI` are those of R224. -/
def Obligations.InvokeChecksTheResponse : Prop :=
  ∀ (s : State) (f : Frame) (kind : Byte), s.inputs = [] → s.phase = .rxReply → s.portOpen = true →
    s.dec.st = .complete → s.dec.exp = true → frameIn s.dec.buf = some f → s.invoke = some kind →
    let value := decodeResult kind f.payload
    let st : Status :=
      if f.kind ≠ kind ∨ f.payload.length ≠ responseLen kind then .recvUnexpectedPayloadError
      else if inValidRange kind value then .success else .recvFrameValueError
    ∃ t, step s = .next t ∧ t.phase = .idle ∧ t.invoke = none ∧ t.result = some f ∧ t.status = st ∧
      t.ending = some (.invoked st (if st = .success then some value else none)) ∧
      t.outbound = s.outbound ++ [0x0D#8] ∧
      responseLen 0x08#8 = 1 ∧ responseLen 0x20#8 = 1 ∧ (∀ v : Byte, decodeResult 0x20#8 [v] = [v])

/-- R194 and R260: a closed port at the write of an acknowledgment fails the reception with -7, whatever the verdict, and no
byte is written. A NACK that was due is counted, as R190 and R194 count it before its write; that they are followed there, where
R36 and R200 read otherwise, is the model's choice (log 34). -/
def Obligations.ClosedWriteBeatsTheVerdict : Prop :=
  ∀ s : State, s.inputs = [] → s.phase = .rxReply → s.portOpen = false →
    step s = .next { s with
      phase := .idle, status := .recvPartialFrameValidationError, diag := .closed, result := none, invoke := none
      ending := some (if s.invoke = none then .failed .recvPartialFrameValidationError
        else .invoked .recvPartialFrameValidationError none)
      rxNacks := if s.dec.exp = false ∨ s.dec.st = .crcError ∧ s.params.lastByte = .crcGated then s.rxNacks + 1
        else s.rxNacks
      trace := s.trace ++ [LinkEvent.mk (writeDir s.params.role) .closed] }

/-- R100 and R250: each of the eleven statuses has its signed value and its 8-bit code; and the numbers of `DEC.ST` (R29),
`XFER.PHASE` (R32) and `DIAG` (R38). -/
def Obligations.StatusCodesAreTheTable : Prop :=
  (∀ st : Status, (st.value, st.code) =
    match st with
    | .success => (0, 0x00#8)
    | .sendCmdFailure => (-1, 0xFF#8)
    | .recvUnexpectedPayloadError => (-2, 0xFE#8)
    | .recvFrameNackError => (-3, 0xFD#8)
    | .recvFrameCrcError => (-4, 0xFC#8)
    | .recvFrameAckError => (-5, 0xFB#8)
    | .recvFrameSofError => (-6, 0xFA#8)
    | .recvPartialFrameValidationError => (-7, 0xF9#8)
    | .recvFrameValueError => (-8, 0xF8#8)
    | .formatNoneError => (-9, 0xF7#8)
    | .shutdownVoltageOverSystemVal => (-10, 0xF6#8)) ∧
  (∀ st : Status, st.code = BitVec.ofInt 8 st.value ∧ st.code.toInt = st.value) ∧
  [Verdict.incomplete, .complete, .sofError, .crcError].map Verdict.code = [0, 1, 2, 3] ∧
  [Phase.idle, .txWrite, .txWait, .rxWait, .rxReply].map Phase.code = [0, 1, 2, 3, 4] ∧
  [Diag.none, .replyNack, .replyOther, .timeout, .closed, .encode].map Diag.code = [0, 1, 2, 3, 4, 5]

/-! ### The machine -/

/-- A step with something presented executes the instruction it decodes to, in the state that no longer holds it. -/
def Obligations.StepExecutesThePresentedInstruction : Prop :=
  ∀ (s : State) (p : Presented) (rest : List Input) (i : Instr),
    s.inputs = .present p :: rest → decode p = .ok i → step s = exec i { s with inputs := rest }

/-- The operation codes of R104 and the wire patterns of R91 and R97, as words. -/
def Obligations.TableWordsDecode : Prop :=
  decode (.op ⟨0b0001#4, [.byte 0x20#8]⟩) = .ok (.crcUpd 0x20#8) ∧
  decode (.op ⟨0b0110#4, [.byte 0x01#8]⟩) = .ok (.decPush 0x01#8) ∧
  decode (.op ⟨0b1001#4, [.byte 0x20#8, .bytes [0x03#8]]⟩) = .ok (.sendFrame 0x20#8 [0x03#8]) ∧
  decode (.op ⟨0b1101#4, []⟩) = .ok .release ∧
  decode (.wire [0b00001101#8]) = .ok .ack ∧ decode (.wire [0b00000111#8]) = .ok .nack ∧
  decode (.wire [0b00000001#8, 0b11001100#8, 0b00000001#8, 0b00100000#8, 0b00000011#8]) =
    .ok (.frameGetDi 0xCC#8 [0x03#8])

/-- Every well-formed instruction is decoded from what encodes it, with every operand. -/
def Obligations.DecodeEncodeIsTheInstruction : Prop :=
  ∀ i : Instr, i.wf = true → decode (encode i) = .ok i

/-- Whatever decodes is encoded by exactly what was presented, the reserved codes with any operands aside: what the wire
decodes to is well-formed, its bytes the bytes that encode it (R90, R97), and an operation is read from its code and operands
only (R104). That a request which encodes no operation and shows no reserved code is refused, and the refusal's name, are the
model's choice (log 4): R105 gives such operands no form, and R254 does not list the case. -/
def Obligations.OnlyEncodingsDecode : Prop :=
  (∀ (bytes : List Byte) (i : Instr), decode (.wire bytes) = .ok i → i.wf = true ∧ encode i = .wire bytes) ∧
  (∀ (r : Request) (i : Instr), decode (.op r) = .ok i → i.wf = true ∧
    (encode i = .op r ∨ (r.code = 0xE#4 ∧ i = .reservedE) ∨ (r.code = 0xF#4 ∧ i = .reservedF))) ∧
  (∀ (r : Request) (s : State) (rest : List Input), (∀ i : Instr, encode i ≠ .op r) → r.code ≠ 0xE#4 → r.code ≠ 0xF#4 →
    s.inputs = .present (.op r) :: rest → step s = .refused (.badRequest .operandShape))

/-- R158 and the state invariant hold at reset. -/
def Obligations.ResetMeetsTheInvariant : Prop := State.reset.Inv

/-- R158 and the state invariant are kept by every step, from every state that meets them, whatever the inputs. -/
def Obligations.StepKeepsTheInvariant : Prop :=
  ∀ s t : State, s.Inv → step s = .next t → t.Inv

/-- From a state that meets the invariant no step reads an element that holds no value (R47, R61). -/
def Obligations.InvariantStatesNeverFault : Prop :=
  ∀ (s : State) (r : Fault), s.Inv → step s ≠ .fault r

/-- R184: in every phase but `IDLE` the sequencer performs exactly one link primitive, the one R32 names for the phase. -/
def Obligations.OnePrimitivePerPhase : Prop :=
  ∀ s : State, s.Inv → s.inputs = [] → s.phase ≠ .idle →
    ∃ t m, step s = .next t ∧ t.trace = s.trace ++ [LinkEvent.mk
      (if s.phase = .txWrite ∨ s.phase = .rxReply then writeDir s.params.role else readDir s.params.role) m]

/-- R22 and R315 (b): only `CRC_CLR`, `CRC_UPD`, `CHECKSUM` and reset write `CRC.R`; no step writes a parameter (R43, R45). -/
def Obligations.OnlyTheChecksumUnitWritesCrcR : Prop :=
  ∀ s t : State, step s = .next t → t.params = s.params ∧ (t.crc ≠ s.crc →
    (∃ rest, s.inputs = .reset :: rest) ∨
    ∃ p rest, s.inputs = .present p :: rest ∧
      (decode p = .ok .crcClr ∨ (∃ b, decode p = .ok (.crcUpd b)) ∨ ∃ bs, decode p = .ok (.checksum bs)))

/-- R310: no operation flushes the link or takes a byte from it, and the sequencer takes at most the oldest one; bytes are
written only by the sequencer, one at a time. That `CLAIM`, too, takes and writes no byte is the model's choice, not R310's:
its probe is left out of the channels (log 23). -/
def Obligations.StaleBytesStay : Prop :=
  (∀ (i : Instr) (s t : State), exec i s = .next t →
    (∃ bs, t.inbound = s.inbound ++ bs) ∧ t.outbound = s.outbound) ∧
  (∀ s t : State, s.inputs = [] → step s = .next t →
    (t.inbound = s.inbound ∨ ∃ b, s.inbound = b :: t.inbound) ∧
    (t.outbound = s.outbound ∨ ∃ b, t.outbound = s.outbound ++ [b]))

/-- R39, R165 and R312: when a reception of the caller's ends, `RESULT` is valid exactly when it ended ok. -/
def Obligations.ResultIsValidIffReceptionEndedOk : Prop :=
  ∀ s t : State, s.inputs = [] → s.phase = .rxWait ∨ s.phase = .rxReply → s.invoke = none → step s = .next t →
    t.phase = .idle → (t.resultValid = true ↔ t.status = .success)

/-- R112: as initiator the block's writes are `H>P` events and its reads `P>H` events, as responder the other way round. R202 and
R270: the role changes nothing but these labels: the events a step appends have the same marks under either role. -/
def Obligations.RoleOnlyLabelsTheTrace : Prop :=
  writeDir .initiator = .hostToPeer ∧ readDir .initiator = .peerToHost ∧
  writeDir .responder = .peerToHost ∧ readDir .responder = .hostToPeer ∧
  ∀ (s t : State) (role : Role) (labels : List LinkEvent), step s = .next t →
    ∃ u events events', step { s with params := { s.params with role := role }, trace := labels } = .next u ∧
      u = { t with params := { t.params with role := role }, trace := labels ++ events' } ∧
      t.trace = s.trace ++ events ∧ events'.map (·.mark) = events.map (·.mark)

/-! ### Whole transfers -/

/-- R204 and R318: with no other agent moving, every transfer ends within its bound, whatever the peer sent and whether the
port is open: 518 primitives for a `SEND_FRAME` or a `RECV_FRAME`, and so 518 from a receiving phase in any case, and twice that
for an invocation. -/
def Obligations.EveryTransferEnds : Prop :=
  ∀ s : State, s.Inv → s.inputs = [] →
    (s.invoke = none ∨ s.phase = .rxWait ∨ s.phase = .rxReply → ∃ t, runSteps 518 s = .next t ∧ t.phase = .idle) ∧
    ∃ t, runSteps 1036 s = .next t ∧ t.phase = .idle

/-- R185, R189 and R204: `SEND_FRAME` over an open port is the loop of R185 over the peer's replies: bytes are written in
order, each once, one reply is read for each, the first that is not ACK ends it with -1, and what follows stays in the
channel. -/
def Obligations.SendFrameRunsItsLoop : Prop :=
  ∀ (kind : Byte) (payload : List Byte) (s : State), payload.length ≤ 255 → s.phase = .idle → s.claimed = true →
    s.portOpen = true → s.inputs = [] → s.invoke = none →
    ∃ t, exec (.sendFrame kind payload) s = .next t ∧
      runSteps (2 * (4 + payload.length)) t =
        (let r := sendRun s.params.role (frameBytes kind payload) s.inbound
        .next { s with
          txBuf := frameBytes kind payload, txIdx := r.idx
          status := r.status, diag := r.failure.getD .none
          ending := some (if r.failure = none then .sent else .failed .sendCmdFailure)
          inbound := r.rest, outbound := s.outbound ++ r.written, trace := s.trace ++ r.events })

/-- R190 and R204: `RECV_FRAME` over an open port agrees with `DECODE` of the peer's bytes: the frame it holds, or the status of
the codec error (R252), every byte read is acknowledged, and what follows the frame stays in the channel. `RX.NACKS` is the
number of NACKs written (R36), and 1 exactly when the status is -6, or under `crc_gated` -4 (R200). -/
def Obligations.RecvFrameAgreesWithDecode : Prop :=
  ∀ s : State, s.phase = .idle → s.claimed = true → s.portOpen = true → s.inputs = [] → s.invoke = none →
    s.params.desync = .never →
    ∃ t u, exec .recvFrame s = .next t ∧ runSteps 518 t = .next u ∧ u.phase = .idle ∧
      u.inbound = s.inbound.drop (recvReads s.inbound) ∧
      u.outbound = s.outbound ++ recvReplies s.params.lastByte s.inbound ∧
      (match decodeFrame s.inbound with
        | .ok f => u.status = .success ∧ u.diag = .none ∧ u.result = some f ∧ u.ending = some (.frame f)
        | .error e => u.status = e.status ∧ u.result = none ∧ u.ending = some (.failed e.status) ∧
            u.diag = if e = .partialFrameError then .timeout else .none) ∧
      u.rxNacks = (recvReplies s.params.lastByte s.inbound).count 0x07#8 ∧ u.rxNacks ≤ 1 ∧
      (u.rxNacks = 1 ↔
        u.status = .recvFrameSofError ∨ u.status = .recvFrameCrcError ∧ s.params.lastByte = .crcGated)

/-- The two halves of one exchange (R202): the bytes `SEND_FRAME` writes when every one is acknowledged are the bytes that
make `RECV_FRAME` return the same kind and payload, and the acknowledgments it writes are all ACK. -/
def Obligations.SenderAndReceiverFit : Prop :=
  ∀ (kind : Byte) (payload later : List Byte) (role : Role) (policy : LastBytePolicy), payload.length ≤ 255 →
    let wire := frameBytes kind payload
    let replies := recvReplies policy (wire ++ later)
    decodeFrame (wire ++ later) = .ok ⟨kind, payload⟩ ∧ recvReads (wire ++ later) = wire.length ∧
    (sendRun role wire replies).failure = none ∧ (sendRun role wire replies).written = wire ∧
    (sendRun role wire replies).rest = []

/-- R220 and R221: `INVOKE` over an open port returns what its pseudocode returns, whatever the descriptor and the guard are;
its first stage is the check that every required argument is there (R222). -/
def Obligations.InvokeRunsItsStages : Prop :=
  ∀ (kind : Byte) (args : Args) (s : State), s.phase = .idle → s.claimed = true → s.portOpen = true →
    s.inputs = [] → s.params.desync = .never →
    (argMissing kind args = true ↔ ∃ i ∈ requiredArgs kind, args[i]? = none ∨ args[i]? = some none) ∧
    ∃ t u, exec (.invoke kind args) s = .next t ∧ runSteps 1036 t = .next u ∧ u.phase = .idle ∧
      u.invoke = none ∧
      u.status = (invokeOutcome s.params.role kind args s.inbound).1 ∧
      u.ending = some (.invoked (invokeOutcome s.params.role kind args s.inbound).1
        (invokeOutcome s.params.role kind args s.inbound).2)
end

