-- ==== Sys2Proof/Laws/Checksum.lean ====
section
/-! SUPPORT. The checksum step is linear and one-to-one, and what follows for sequences (R132, R137, R139). -/

namespace Sys2Proof.Machine

open Sys2Proof

/-! ### One step -/

theorem crcShift_xor (x y : Byte) : crcShift (x ^^^ y) = crcShift x ^^^ crcShift y := by
  have swap : ∀ a b c : Byte, a ^^^ (b ^^^ c) = b ^^^ (a ^^^ c) := fun a b c => by
    rw [← BitVec.xor_assoc, BitVec.xor_comm a b, BitVec.xor_assoc]
  unfold crcShift
  simp only [BitVec.getLsbD_xor]
  cases x.getLsbD 7 <;> cases y.getLsbD 7 <;>
    simp [BitVec.shiftLeft_xor_distrib, BitVec.xor_comm, swap]

theorem crcShifts_xor (k : Nat) (x y : Byte) : crcShifts k (x ^^^ y) = crcShifts k x ^^^ crcShifts k y := by
  induction k generalizing x y with
  | zero => rfl
  | succ k ih => simp only [crcShifts, crcShift_xor, ih]

theorem crc8Step_xor (r r' b b' : Byte) :
    crc8Step (r ^^^ r') (b ^^^ b') = crc8Step r b ^^^ crc8Step r' b' := by
  have h : (r ^^^ r') ^^^ (b ^^^ b') = (r ^^^ b) ^^^ (r' ^^^ b') := by
    rw [BitVec.xor_assoc, BitVec.xor_assoc, ← BitVec.xor_assoc r' b b', BitVec.xor_comm r' b, BitVec.xor_assoc b]
  simp only [crc8Step, h, crcShifts_xor]

/-- The table form (R137). -/
theorem crc8Step_table (r b : Byte) : crc8Step r b = crc8Step 0x00#8 (r ^^^ b) := by
  simp [crc8Step]

@[simp] theorem crc8Step_self (r : Byte) : crc8Step r r = 0x00#8 := by
  rw [crc8Step_table, BitVec.xor_self]; decide

/-- The table `T` maps only zero to zero. -/
theorem table_eq_zero : ∀ x : Byte, crc8Step 0x00#8 x = 0x00#8 → x = 0x00#8 := by decide +kernel

theorem crc8Step_eq_zero {r b : Byte} (h : crc8Step r b = 0x00#8) : r = b := by
  rw [crc8Step_table] at h
  exact BitVec.xor_eq_zero_iff.mp (table_eq_zero _ h)

/-! ### Sequences -/

@[simp] theorem crc8From_nil (r : Byte) : crc8From r [] = r := rfl

@[simp] theorem crc8From_cons (r b : Byte) (bs : List Byte) :
    crc8From r (b :: bs) = crc8From (crc8Step r b) bs := rfl

theorem crc8From_append (r : Byte) (s t : List Byte) : crc8From r (s ++ t) = crc8From (crc8From r s) t := by
  simp [crc8From, List.foldl_append]

@[simp] theorem crc8_nil : crc8 [] = 0x00#8 := rfl

/-- Composition (R139 (d)). -/
theorem crc8_append (s t : List Byte) : crc8 (s ++ t) = crc8From (crc8 s) t := crc8From_append _ _ _

theorem crc8_concat (s : List Byte) (b : Byte) : crc8 (s ++ [b]) = crc8Step (crc8 s) b := crc8_append s [b]

/-- Over one tail, the checksums from two registers differ by the checksum of their difference over zeros. -/
theorem crc8From_xor (r r' : Byte) (s t : List Byte) (h : s.length = t.length) :
    crc8From (r ^^^ r') (List.zipWith (· ^^^ ·) s t) = crc8From r s ^^^ crc8From r' t := by
  induction s generalizing r r' t with
  | nil => cases t with
    | nil => rfl
    | cons _ _ => simp at h
  | cons a s ih => cases t with
    | nil => simp at h
    | cons b t =>
      simp only [List.zipWith_cons_cons, crc8From_cons, crc8Step_xor]
      exact ih _ _ _ (by simpa using h)

/-- Two registers that differ still differ after any bytes. -/
theorem crc8From_injective {r r' : Byte} (s : List Byte) (h : crc8From r s = crc8From r' s) : r = r' := by
  induction s generalizing r r' with
  | nil => exact h
  | cons b s ih =>
    have h1 : crc8Step r b = crc8Step r' b := ih h
    have h2 : crc8Step (r ^^^ r') (b ^^^ b) = 0x00#8 := by rw [crc8Step_xor, h1, BitVec.xor_self]
    rw [BitVec.xor_self] at h2
    exact BitVec.xor_eq_zero_iff.mp (crc8Step_eq_zero h2)

/-- A changed byte changes the checksum whatever follows. -/
theorem crc8_changed_byte (front back : List Byte) {b c : Byte} (h : b ≠ c) :
    crc8 (front ++ b :: back) ≠ crc8 (front ++ c :: back) := by
  intro e
  rw [crc8_append, crc8_append, crc8From_cons, crc8From_cons] at e
  have h1 := crc8From_injective back e
  have h2 : crc8Step 0x00#8 (b ^^^ c) = 0x00#8 := by
    have := crc8Step_xor (crc8 front) (crc8 front) b c
    rwa [h1, BitVec.xor_self, BitVec.xor_self] at this
  exact h (BitVec.xor_eq_zero_iff.mp (table_eq_zero _ h2))

end Sys2Proof.Machine
end

