-- ==== Sys2Proof/Laws/Codec.lean ====
section
/-! SUPPORT. The Frame Codec: what `DEC_PUSH` does case by case (R156, R157), that it keeps the accumulator's invariant (R158),
and how the buffer determines what `DECODE` says of it (R160, R164). -/

namespace Sys2Proof.Machine

open Sys2Proof

/-! ### DEC_PUSH, case by case -/

/-- R157. -/
theorem push_terminal {a : Accumulator} (b : Byte) (h : a.st ≠ .incomplete) : a.push b = { a with exp := false } := by
  simp [Accumulator.push, h]

theorem push_wrongStart {a : Accumulator} {b : Byte} (h : a.st = .incomplete) (hn : a.n = 0) (hb : b ≠ Config.sof) :
    a.push b = { a with st := .sofError, exp := false } := by
  simp [Accumulator.push, h, hn, hb]

theorem push_start {a : Accumulator} (h : a.st = .incomplete) (hn : a.n = 0) :
    a.push Config.sof = ⟨[Config.sof], a.crc, .incomplete, true⟩ := by
  simp [Accumulator.push, h, hn]

theorem push_later {a : Accumulator} (b : Byte) (h : a.st = .incomplete) (hn : 1 ≤ a.n) :
    a.push b = ⟨a.buf ++ [b], if 2 ≤ a.n then crc8Step a.crc b else a.crc, bufferVerdict (a.store b), true⟩ := by
  simp [Accumulator.push, h, Nat.ne_of_gt hn, Accumulator.store, Memory.append]

/-- Everything `DEC_PUSH` can do (R156, R157). -/
theorem push_cases (a : Accumulator) (b : Byte) :
    (a.st ≠ .incomplete ∧ a.push b = { a with exp := false }) ∨
    (a.st = .incomplete ∧ a.n = 0 ∧ b ≠ Config.sof ∧ a.push b = { a with st := .sofError, exp := false }) ∨
    (a.st = .incomplete ∧ a.n = 0 ∧ b = Config.sof ∧ a.push b = ⟨[b], a.crc, .incomplete, true⟩) ∨
    (a.st = .incomplete ∧ 1 ≤ a.n ∧
      a.push b = ⟨a.buf ++ [b], if 2 ≤ a.n then crc8Step a.crc b else a.crc, bufferVerdict (a.store b), true⟩) := by
  by_cases h : a.st = .incomplete
  · by_cases hn : a.n = 0
    · by_cases hb : b = Config.sof
      · exact .inr (.inr (.inl ⟨h, hn, hb, hb ▸ push_start h hn⟩))
      · exact .inr (.inl ⟨h, hn, hb, push_wrongStart h hn hb⟩)
    · exact .inr (.inr (.inr ⟨h, Nat.pos_of_ne_zero hn, push_later b h (Nat.pos_of_ne_zero hn)⟩))
  · exact .inl ⟨h, push_terminal b h⟩

/-- What the verdict says of a buffer (R156). -/
theorem bufferVerdict_cases (a : Accumulator) :
    (bufferVerdict a = .incomplete ∧ (a.n < 4 ∨ ∀ len, a.buf[2]? = some len → a.n ≠ 4 + len.toNat)) ∨
    (∃ len, a.buf[2]? = some len ∧ a.n = 4 + len.toNat ∧
      ((bufferVerdict a = .complete ∧ a.buf[1]? = some a.crc) ∨
        (bufferVerdict a = .crcError ∧ a.buf[1]? ≠ some a.crc))) := by
  unfold bufferVerdict Accumulator.need Memory.read Config.hdrLen
  by_cases h : 4 ≤ a.n ∧ (a.buf[2]?.map fun len => 4 + len.toNat) = some a.n
  · rw [if_pos h]
    obtain ⟨len, hl, hn⟩ := Option.map_eq_some_iff.mp h.2
    refine .inr ⟨len, hl, hn.symm, ?_⟩
    by_cases hc : some a.crc = a.buf[1]?
    · exact .inl ⟨if_pos hc, hc.symm⟩
    · exact .inr ⟨if_neg hc, fun e => hc e.symm⟩
  · rw [if_neg h]
    refine .inl ⟨rfl, ?_⟩
    by_cases h4 : 4 ≤ a.n
    · exact .inr fun len hl hn => h ⟨h4, by rw [hl, Option.map_some, hn]⟩
    · exact .inl (Nat.lt_of_not_le h4)

/-! ### The invariant -/

theorem wellFormedFrame_length {f : List Byte} (h : wellFormedFrame f) : 4 ≤ f.length ∧ f.length ≤ 259 := by
  obtain ⟨h4, -, hl, -⟩ := h
  obtain ⟨len, -, e⟩ := Option.map_eq_some_iff.mp hl
  have := len.isLt
  omega

theorem not_wellFormed_nil : ¬ wellFormedFrame [] := fun h => by simp [wellFormedFrame] at h

theorem empty_inv : Accumulator.empty.Inv where
  sofError_empty := by simp [Accumulator.empty]
  start_byte := by simp [Accumulator.empty, Accumulator.n]
  incomplete_short := by simp [Accumulator.empty, Accumulator.n]
  judged_full := by simp [Accumulator.empty]
  complete_iff := by simp [Accumulator.empty, not_wellFormed_nil]
  running_crc := by simp [Accumulator.empty, Accumulator.n]
  fits := by simp [Accumulator.empty, Accumulator.n]

/-- `DEC_PUSH` keeps R158. -/
theorem push_inv {a : Accumulator} (b : Byte) (h : a.Inv) : (a.push b).Inv := by
  rcases push_cases a b with ⟨-, e⟩ | ⟨hi, hn, hb, e⟩ | ⟨hi, hn, hb, e⟩ | ⟨hi, hn, e⟩
  · rw [e]
    exact ⟨h.1, h.2, h.3, h.4, h.5, h.6, h.7⟩
  · rw [e]
    have hbuf : a.buf = [] := List.length_eq_zero_iff.mp hn
    have hc : a.crc = 0x00#8 := by have := h.running_crc; rwa [if_neg (by omega)] at this
    constructor <;> simp [Accumulator.n, hbuf, hc, not_wellFormed_nil]
  · rw [e]
    have hc : a.crc = 0x00#8 := by have := h.running_crc; rwa [if_neg (by omega)] at this
    constructor <;> simp [Accumulator.n, hb, hc, wellFormedFrame]
  · rw [e]
    have hn' : a.n = a.buf.length := rfl
    have hlen : (a.buf ++ [b]).length = a.n + 1 := by simp [hn']
    have hstart : (a.buf ++ [b])[0]? = some Config.sof := by
      rw [List.getElem?_append_left (by omega)]; exact h.start_byte hn
    have hcrc : (if 2 ≤ a.n then crc8Step a.crc b else a.crc) = crc8 ((a.buf ++ [b]).drop 2) := by
      have hr := h.running_crc
      by_cases h2 : 2 ≤ a.n
      · rw [if_pos h2] at hr ⊢
        rw [List.drop_append_of_le_length (by omega), crc8_concat, hr]
      · rw [if_neg h2] at hr ⊢
        rw [hr, List.drop_eq_nil_of_le (by rw [hlen]; omega), crc8_nil]
    set c := (if 2 ≤ a.n then crc8Step a.crc b else a.crc) with hcdef
    have hs : a.store b = ⟨a.buf ++ [b], c, a.st, true⟩ := by simp [Accumulator.store, Memory.append, hcdef]
    have hshort : a.n < 3 ∨ ∃ len, (a.buf ++ [b])[2]? = some len ∧ a.n < 4 + len.toNat := by
      rcases h.incomplete_short hi with h3 | ⟨len, hl, hlt⟩
      · exact .inl h3
      · by_cases h3 : a.n < 3
        · exact .inl h3
        · exact .inr ⟨len, by rw [List.getElem?_append_left (by omega)]; exact hl, hlt⟩
    have hbound : a.n + 1 ≤ 259 := by
      rcases hshort with h3 | ⟨len, -, hlt⟩
      · omega
      · have := len.isLt; omega
    have hv := bufferVerdict_cases (a.store b)
    rw [hs] at hv ⊢
    generalize bufferVerdict ⟨a.buf ++ [b], c, a.st, true⟩ = v at hv ⊢
    simp only [Accumulator.n, hlen] at hv
    have hrun : c = if 2 ≤ a.n + 1 then crc8 ((a.buf ++ [b]).drop 2) else 0x00#8 := by
      rw [if_pos (by omega)]; exact hcrc
    have hwf : (∃ len, (a.buf ++ [b])[2]? = some len ∧ a.n + 1 = 4 + len.toNat) → (a.buf ++ [b])[1]? = some c →
        wellFormedFrame (a.buf ++ [b]) := by
      rintro ⟨len, hl, hlt⟩ h1
      exact ⟨by omega, hstart, by rw [hl, hlen, Option.map_some, hlt], by rw [h1, hcrc]⟩
    have hwf' : wellFormedFrame (a.buf ++ [b]) →
        (∃ len, (a.buf ++ [b])[2]? = some len ∧ a.n + 1 = 4 + len.toNat) ∧ (a.buf ++ [b])[1]? = some c := by
      rintro ⟨-, -, hl, h1⟩
      obtain ⟨len, hl, hlt⟩ := Option.map_eq_some_iff.mp hl
      exact ⟨⟨len, hl, by rw [hlen] at hlt; exact hlt.symm⟩, by rw [h1, hcrc]⟩
    rcases hv with ⟨rfl, hno⟩ | ⟨len, hl, hlt, ⟨rfl, h1⟩ | ⟨rfl, h1⟩⟩
    · refine ⟨by simp, fun _ => hstart, fun _ => ?_, by simp, ?_, by simpa [Accumulator.n, hlen] using hrun,
        by simpa [Accumulator.n] using hbound⟩
      · simp only [Accumulator.n, hlen]
        rcases hno with h4 | hno
        · by_cases h3 : a.n + 1 < 3
          · exact .inl h3
          · refine .inr ⟨(a.buf ++ [b])[2]'(by omega), List.getElem?_eq_getElem _, by omega⟩
        · rcases hshort with h3 | ⟨len, hl, hlt⟩
          · by_cases h3' : a.n + 1 < 3
            · exact .inl h3'
            · exact .inr ⟨(a.buf ++ [b])[2]'(by omega), List.getElem?_eq_getElem _, by omega⟩
          · exact .inr ⟨len, hl, by have := hno len hl; omega⟩
      · refine ⟨by simp, fun hw => ?_⟩
        obtain ⟨⟨len, hl, hlt⟩, -⟩ := hwf' hw
        rcases hno with h4 | hno
        · omega
        · exact absurd hlt (hno len hl)
    · exact ⟨by simp, fun _ => hstart, by simp, fun _ => ⟨len, hl, by simpa [Accumulator.n, hlen] using hlt⟩,
        ⟨fun _ => hwf ⟨len, hl, hlt⟩ h1, fun _ => rfl⟩, by simpa [Accumulator.n, hlen] using hrun,
        by simpa [Accumulator.n] using hbound⟩
    · exact ⟨by simp, fun _ => hstart, by simp, fun _ => ⟨len, hl, by simpa [Accumulator.n, hlen] using hlt⟩,
        ⟨by simp, fun hw => absurd (hwf' hw).2 h1⟩, by simpa [Accumulator.n, hlen] using hrun,
        by simpa [Accumulator.n] using hbound⟩

/-- After a push on an open accumulator the byte was expected exactly when it is no wrong start byte (R193). -/
theorem push_exp_iff {a : Accumulator} (b : Byte) (hi : a.st = .incomplete) :
    (a.push b).exp = true ↔ (a.push b).st ≠ .sofError := by
  rcases push_cases a b with ⟨h, -⟩ | ⟨-, -, -, e⟩ | ⟨-, -, -, e⟩ | ⟨-, -, e⟩
  · exact absurd hi h
  · simp [e]
  · simp [e]
  · rw [e]
    rcases bufferVerdict_cases (a.store b) with ⟨v, -⟩ | ⟨-, -, -, ⟨v, -⟩ | ⟨v, -⟩⟩ <;> simp [v]

/-- An expected byte is in the buffer (R156, R157). -/
theorem push_exp_stored {a : Accumulator} (b : Byte) (h : (a.push b).exp = true) : 1 ≤ (a.push b).n := by
  rcases push_cases a b with ⟨-, e⟩ | ⟨-, -, -, e⟩ | ⟨-, -, -, e⟩ | ⟨-, -, e⟩ <;> rw [e] at h ⊢ <;>
    simp_all [Accumulator.n]

/-! ### Frames and DECODE -/

@[simp] theorem lenByte_toNat {p : List Byte} (h : p.length ≤ 255) : (lenByte p).toNat = p.length := by
  simp only [lenByte, BitVec.toNat_ofNat]; omega

@[simp] theorem frameBytes_length (k : Byte) (p : List Byte) : (frameBytes k p).length = 4 + p.length := by
  simp [frameBytes]; omega

theorem frameBytes_eq (k : Byte) (p : List Byte) :
    frameBytes k p = Config.sof :: crc8 (lenByte p :: k :: p) :: lenByte p :: k :: p := rfl

theorem frameBytes_wellFormed (k : Byte) {p : List Byte} (h : p.length ≤ 255) : wellFormedFrame (frameBytes k p) := by
  refine ⟨by simp, rfl, ?_, by simp [frameBytes_eq]⟩
  rw [frameBytes_length]
  simp [frameBytes_eq, h]

theorem encodeFrame_ok {k : Byte} {p : List Byte} (h : p.length ≤ 255) : encodeFrame k p = .ok (frameBytes k p) := by
  simp [encodeFrame, Config.maxPayload, Nat.not_lt.mpr h]

theorem encodeFrame_error {k : Byte} {p : List Byte} (h : 255 < p.length) : encodeFrame k p = .error .valueError := by
  simp [encodeFrame, Config.maxPayload, h]

/-- `DECODE` on a header and a tail (R160). -/
theorem decodeFrame_header (c l k : Byte) (t : List Byte) :
    decodeFrame (Config.sof :: c :: l :: k :: t) =
      if t.length < l.toNat then .error .partialFrameError
      else if crc8 (l :: k :: t.take l.toNat) ≠ c then .error .crcError
      else .ok ⟨k, t.take l.toNat⟩ := by
  simp [decodeFrame]

theorem decodeFrame_wrongStart {b : Byte} (bs : List Byte) (h : b ≠ Config.sof) :
    decodeFrame (b :: bs) = .error .sofError := by
  simp [decodeFrame, h]

theorem decodeFrame_short {bs : List Byte} (h : bs.length < 4) (hs : ∀ b, bs[0]? = some b → b = Config.sof) :
    decodeFrame bs = .error .partialFrameError := by
  match bs with
  | [] => rfl
  | [a] => simp [decodeFrame, hs a rfl]
  | [a, b] => simp [decodeFrame, hs a rfl]
  | [a, b, c] => simp [decodeFrame, hs a rfl]
  | _ :: _ :: _ :: _ :: _ => simp at h; omega

/-- A frame followed by anything decodes to its kind and payload (R163, R166). -/
theorem decodeFrame_frameBytes (k : Byte) {p : List Byte} (h : p.length ≤ 255) (later : List Byte) :
    decodeFrame (frameBytes k p ++ later) = .ok ⟨k, p⟩ := by
  rw [frameBytes_eq]
  simp only [List.cons_append, decodeFrame_header, lenByte_toNat h, List.length_append]
  simp

/-- A list of at least four bytes, taken apart. -/
theorem exists_header {bs : List Byte} (h : 4 ≤ bs.length) : ∃ s c l k t, bs = s :: c :: l :: k :: t := by
  match bs with
  | s :: c :: l :: k :: t => exact ⟨s, c, l, k, t, rfl⟩
  | [] | [_] | [_, _] | [_, _, _] => simp at h

/-- What `DECODE` says of the accumulated bytes (R158, R164). -/
theorem decodeFrame_of_inv {a : Accumulator} (h : a.Inv) :
    (a.st = .incomplete → decodeFrame a.buf = .error .partialFrameError) ∧
    (a.st = .complete → ∃ f, frameIn a.buf = some f ∧ f.payload.length + 4 = a.n ∧
      ∀ later, decodeFrame (a.buf ++ later) = .ok f) ∧
    (a.st = .crcError → ∀ later, decodeFrame (a.buf ++ later) = .error .crcError) := by
  have full : ∀ len, a.buf[2]? = some len → a.n = 4 + len.toNat → ∃ c k t,
      a.buf = Config.sof :: c :: len :: k :: t ∧ t.length = len.toNat := by
    intro len hl hn
    have hn' : a.n = a.buf.length := rfl
    obtain ⟨s, c, l, k, t, e⟩ := exists_header (bs := a.buf) (by omega)
    have hs := h.start_byte (by omega)
    rw [e] at hl hs
    simp only [List.getElem?_cons_zero, Option.some.injEq, List.getElem?_cons_succ] at hl hs
    subst hl hs
    exact ⟨c, k, t, e, by have : a.buf.length = t.length + 4 := by rw [e]; simp
                          omega⟩
  have hn' : a.n = a.buf.length := rfl
  refine ⟨fun hi => ?_, fun hc => ?_, fun hc => ?_⟩
  · have hs : ∀ b, a.buf[0]? = some b → b = Config.sof := by
      intro b hb
      have h1 : 1 ≤ a.n := by
        rw [hn']; by_contra h0
        rw [List.getElem?_eq_none (by omega)] at hb; exact absurd hb (by simp)
      rw [h.start_byte h1] at hb; exact (Option.some.inj hb).symm
    by_cases h4 : a.buf.length < 4
    · exact decodeFrame_short h4 hs
    · obtain ⟨s, c, l, k, t, e⟩ := exists_header (Nat.le_of_not_lt h4)
      rcases h.incomplete_short hi with h3 | ⟨len, hl, hlt⟩
      · omega
      · have := hs s (by rw [e]; rfl)
        subst this
        rw [e] at hl
        simp only [List.getElem?_cons_zero, Option.some.injEq, List.getElem?_cons_succ] at hl
        subst hl
        have : a.buf.length = t.length + 4 := by rw [e]; simp
        rw [e, decodeFrame_header, if_pos (by omega)]
  · obtain ⟨len, hl, hn⟩ := h.judged_full (.inl hc)
    obtain ⟨c, k, t, e, ht⟩ := full len hl hn
    have hw := ((h.complete_iff.mp hc).2.2.2)
    rw [e] at hw
    simp only [List.getElem?_cons_zero, List.getElem?_cons_succ, List.drop_succ_cons, List.drop_zero,
      Option.some.injEq] at hw
    refine ⟨⟨k, t⟩, by simp [e, frameIn, ht], by simp [ht]; omega, fun later => ?_⟩
    rw [e]
    simp only [List.cons_append, decodeFrame_header, List.length_append]
    rw [if_neg (by omega), if_neg (by simp [← ht, ← hw])]
    simp [← ht]
  · obtain ⟨len, hl, hn⟩ := h.judged_full (.inr hc)
    obtain ⟨c, k, t, e, ht⟩ := full len hl hn
    intro later
    have hw : ¬ wellFormedFrame a.buf := fun w => by rw [h.complete_iff.mpr w] at hc; exact absurd hc (by simp)
    rw [e]
    simp only [List.cons_append, decodeFrame_header, List.length_append]
    rw [if_neg (by omega), if_pos]
    intro hcrc
    apply hw
    rw [e]
    refine ⟨by simp, rfl, by simp [ht]; omega, ?_⟩
    have : List.take len.toNat (t ++ later) = t := by simp [← ht]
    rw [this] at hcrc
    simp [← hcrc]

end Sys2Proof.Machine
end

