-- ==== Sys2Proof/Laws/Memory.lean ====
section
/-! SUPPORT. The buffers as memory (R60, R61): read after write, and that the writes the rules make keep the form. -/

namespace Sys2Proof.Machine

open Sys2Proof

/-- The byte written is read back at its offset. -/
@[simp] theorem read_append_self (m : Memory) (v : Byte) : Memory.read (Memory.append m v) m.length = some v := by
  simp [Memory.read, Memory.append]

/-- Every other offset reads as before. -/
theorem read_append_other (m : Memory) (v : Byte) {addr : Nat} (h : addr ≠ m.length) :
    Memory.read (Memory.append m v) addr = Memory.read m addr := by
  unfold Memory.read Memory.append
  rcases Nat.lt_or_gt_of_ne h with hl | hg
  · exact List.getElem?_append_left hl
  · rw [List.getElem?_eq_none (by simp; omega), List.getElem?_eq_none (by omega)]

/-- An offset at or above the length holds no value (R47). -/
theorem read_none (m : Memory) {addr : Nat} (h : m.length ≤ addr) : Memory.read m addr = none :=
  List.getElem?_eq_none h

/-- A write at an offset that exists keeps the form. -/
theorem append_wf {m : Memory} (v : Byte) (h : m.length < Config.maxFrame) : Memory.wf (Memory.append m v) := by
  simp [Memory.wf, Memory.append]; exact h

/-- A loaded frame has the form. -/
theorem frameBytes_wf (k : Byte) {p : List Byte} (h : p.length ≤ 255) : Memory.wf (frameBytes k p) := by
  simp [Memory.wf, Config.maxFrame]; omega

/-- `DEC_PUSH` keeps the form of `DEC.BUF`. -/
theorem push_wf {a : Accumulator} (b : Byte) (h : a.Inv) : Memory.wf (a.push b).buf := (push_inv b h).fits

theorem reset_wf : Memory.wf State.reset.dec.buf ∧ Memory.wf State.reset.txBuf := by decide

/-- Equal cells are equal buffers: the list is canonical. -/
theorem cells_injective {m m' : Memory} (h : m.cells = m'.cells) : m = m' := by
  have e : ∀ x : Memory, x.cells.map Prod.snd = x := fun x => by
    simp [Memory.cells, Function.comp_def]
  rw [← e m, h, e m']

end Sys2Proof.Machine
end

