-- ==== Sys2Proof/Laws/PerInstr.lean ====
section
/-! SUPPORT. The family `EncodeDecode`: what encodes a well-formed instruction decodes to it, one lemma per constructor. -/

namespace Sys2Proof.Laws

open Sys2Proof

/-- What is presented for a well-formed instruction is read as that instruction. -/
def EncodeDecode.Statement (i : Instr) : Prop := i.wf = true → decode (Sys2Proof.encode i) = .ok i

/-- A frame whose payload fits is read as the row of its kind. -/
theorem decode_wireFrame (crc kind : Byte) {payload : List Byte} (h : payloadFits payload = true) :
    decode (.wire (wireFrame crc kind payload)) = .ok (frameInstr crc kind payload) := by
  have hl : payload.length ≤ 255 := of_decide_eq_true h
  have : (BitVec.ofNat 8 payload.length).toNat = payload.length := by simp; omega
  simp only [decode, decodeWire, wireFrame, this]
  simp

theorem EncodeDecode.crcClr : EncodeDecode.Statement .crcClr := fun _ => rfl

theorem EncodeDecode.crcUpd (b : Byte) : EncodeDecode.Statement (.crcUpd b) := fun _ => rfl

theorem EncodeDecode.crcRd : EncodeDecode.Statement .crcRd := fun _ => rfl

theorem EncodeDecode.checksum (bs : List Byte) : EncodeDecode.Statement (.checksum bs) := fun _ => rfl

theorem EncodeDecode.encode (kind : Byte) (payload : List Byte) : EncodeDecode.Statement (.encode kind payload) :=
    fun _ => rfl

theorem EncodeDecode.decRst : EncodeDecode.Statement .decRst := fun _ => rfl

theorem EncodeDecode.decPush (b : Byte) : EncodeDecode.Statement (.decPush b) := fun _ => rfl

theorem EncodeDecode.decQry : EncodeDecode.Statement .decQry := fun _ => rfl

theorem EncodeDecode.decode (bs : List Byte) : EncodeDecode.Statement (.decode bs) := fun _ => rfl

theorem EncodeDecode.sendFrame (kind : Byte) (payload : List Byte) : EncodeDecode.Statement (.sendFrame kind payload) :=
    fun _ => rfl

theorem EncodeDecode.recvFrame : EncodeDecode.Statement .recvFrame := fun _ => rfl

theorem EncodeDecode.invoke (kind : Byte) (args : Args) : EncodeDecode.Statement (.invoke kind args) := fun _ => rfl

theorem EncodeDecode.claim (port : Option PortName) : EncodeDecode.Statement (.claim port) := fun _ => rfl

theorem EncodeDecode.release : EncodeDecode.Statement .release := fun _ => rfl

theorem EncodeDecode.reservedE : EncodeDecode.Statement .reservedE := fun _ => rfl

theorem EncodeDecode.reservedF : EncodeDecode.Statement .reservedF := fun _ => rfl

theorem EncodeDecode.frame (crc kind : Byte) (payload : List Byte) : EncodeDecode.Statement (.frame crc kind payload) :=
    by
  intro h
  obtain ⟨hf, hk⟩ : payloadFits payload = true ∧ (!isExampleKind kind) = true := by simpa [Instr.wf] using h
  have h1 : kind ≠ Config.kindGetLowPowerEnable := by rintro rfl; simp [isExampleKind] at hk
  have h2 : kind ≠ Config.kindGetDi := by rintro rfl; simp [isExampleKind] at hk
  simpa [Sys2Proof.encode, frameInstr, h1, h2] using decode_wireFrame crc kind hf

theorem EncodeDecode.ack : EncodeDecode.Statement .ack := fun _ => rfl

theorem EncodeDecode.nack : EncodeDecode.Statement .nack := fun _ => rfl

theorem EncodeDecode.frameGetLowPowerEnable (crc : Byte) (payload : List Byte) : EncodeDecode.Statement (.frameGetLowPowerEnable crc payload) :=
    fun h =>
  decode_wireFrame crc Config.kindGetLowPowerEnable (payload := payload) h

theorem EncodeDecode.frameGetDi (crc : Byte) (payload : List Byte) : EncodeDecode.Statement (.frameGetDi crc payload) :=
    fun h =>
  decode_wireFrame crc Config.kindGetDi (payload := payload) h

end Sys2Proof.Laws
end

