-- ==== Sys2Proof/Laws/Run.lean ====
section
/-! SUPPORT. Runs of several steps: how they unfold, that they compose, and that an idle engine with nothing queued stays as
it is. -/

namespace Sys2Proof.Machine

open Sys2Proof

theorem step_nil {s : State} (h : s.inputs = []) : step s = Sys2Proof.Machine.sequence s := by simp [step, h]

theorem step_cons {s : State} {i : Input} {rest : List Input} (h : s.inputs = i :: rest) :
    step s = takeInput i { s with inputs := rest } := by simp [step, h]

@[simp] theorem runSteps_zero (s : State) : runSteps 0 s = .next s := rfl

theorem runSteps_next {s t : State} (k : Nat) (h : step s = .next t) : runSteps (k + 1) s = runSteps k t := by
  simp [runSteps, h]

theorem runSteps_add {s t : State} {j : Nat} (k : Nat) (h : runSteps j s = .next t) :
    runSteps (j + k) s = runSteps k t := by
  induction j generalizing s with
  | zero => simp at h; simp [h]
  | succ j ih =>
    cases hs : step s with
    | next u =>
      rw [runSteps_next j hs] at h
      rw [Nat.add_right_comm, runSteps_next (j + k) hs, ih h]
    | fault r => simp [runSteps, hs] at h
    | refused r => simp [runSteps, hs] at h

theorem step_idle {s : State} (h : s.inputs = []) (hp : s.phase = .idle) : step s = .next s := by
  simp [step_nil h, Sys2Proof.Machine.sequence, hp]

theorem runSteps_idle {s : State} (k : Nat) (h : s.inputs = []) (hp : s.phase = .idle) : runSteps k s = .next s := by
  induction k with
  | zero => rfl
  | succ k ih => rw [runSteps_next k (step_idle h hp), ih]

theorem host_run_next (M : Host.Core) {s t : M.State} (k : Nat) (h : M.step s = .next t) :
    M.run (k + 1) s = M.run k t := by simp [Host.Core.run, h]

theorem host_run_fault (M : Host.Core) {s : M.State} {r : M.Fault} (k : Nat) (h : M.step s = .fault r) :
    M.run (k + 1) s = .fault r := by simp [Host.Core.run, h]

theorem host_run_refused (M : Host.Core) {s : M.State} {r : M.Refusal} (k : Nat) (h : M.step s = .refused r) :
    M.run (k + 1) s = .refused r := by simp [Host.Core.run, h]

/-- The run of the host's interface is this one. -/
theorem core_run (k : Nat) (s : State) : Host.Core.run Sys2Proof.core k s = runSteps k s := by
  induction k generalizing s with
  | zero => rfl
  | succ k ih =>
    cases h : step s with
    | next t => exact (host_run_next Sys2Proof.core k h).trans ((ih t).trans (runSteps_next k h).symm)
    | fault r => exact (host_run_fault Sys2Proof.core k h).trans (by simp only [runSteps, h]; rfl)
    | refused r => exact (host_run_refused Sys2Proof.core k h).trans (by simp only [runSteps, h]; rfl)

end Sys2Proof.Machine
end

