-- ==== Sys2Proof/Laws/State.lean ====
section
/-! SUPPORT. One lemma per field per named update of the state, so that no proof unfolds a record update. -/

namespace Sys2Proof.Machine

open Sys2Proof

/-! ### afterRead -/

@[simp] theorem afterRead_params (s : State) : (afterRead s).params = s.params := rfl
@[simp] theorem afterRead_crc (s : State) : (afterRead s).crc = s.crc := rfl
@[simp] theorem afterRead_dec (s : State) : (afterRead s).dec = s.dec := rfl
@[simp] theorem afterRead_phase (s : State) : (afterRead s).phase = s.phase := rfl
@[simp] theorem afterRead_txBuf (s : State) : (afterRead s).txBuf = s.txBuf := rfl
@[simp] theorem afterRead_txIdx (s : State) : (afterRead s).txIdx = s.txIdx := rfl
@[simp] theorem afterRead_rxNacks (s : State) : (afterRead s).rxNacks = s.rxNacks := rfl
@[simp] theorem afterRead_status (s : State) : (afterRead s).status = s.status := rfl
@[simp] theorem afterRead_diag (s : State) : (afterRead s).diag = s.diag := rfl
@[simp] theorem afterRead_result (s : State) : (afterRead s).result = s.result := rfl
@[simp] theorem afterRead_claimed (s : State) : (afterRead s).claimed = s.claimed := rfl
@[simp] theorem afterRead_handle (s : State) : (afterRead s).handle = s.handle := rfl
@[simp] theorem afterRead_invoke (s : State) : (afterRead s).invoke = s.invoke := rfl
@[simp] theorem afterRead_ending (s : State) : (afterRead s).ending = s.ending := rfl
@[simp] theorem afterRead_inbound (s : State) :
    (afterRead s).inbound = if s.portOpen then s.inbound.tail else s.inbound := rfl
@[simp] theorem afterRead_outbound (s : State) : (afterRead s).outbound = s.outbound := rfl
@[simp] theorem afterRead_portOpen (s : State) : (afterRead s).portOpen = s.portOpen := rfl
@[simp] theorem afterRead_trace (s : State) :
    (afterRead s).trace = s.trace ++ [⟨readDir s.params.role, (readAnswer s).mark⟩] := rfl
@[simp] theorem afterRead_inputs (s : State) : (afterRead s).inputs = s.inputs := rfl
@[simp] theorem afterRead_free (s : State) : (afterRead s).free = s.free := rfl

/-! ### afterWrite -/

@[simp] theorem afterWrite_params (b : Byte) (s : State) : (afterWrite b s).params = s.params := rfl
@[simp] theorem afterWrite_crc (b : Byte) (s : State) : (afterWrite b s).crc = s.crc := rfl
@[simp] theorem afterWrite_dec (b : Byte) (s : State) : (afterWrite b s).dec = s.dec := rfl
@[simp] theorem afterWrite_phase (b : Byte) (s : State) : (afterWrite b s).phase = s.phase := rfl
@[simp] theorem afterWrite_txBuf (b : Byte) (s : State) : (afterWrite b s).txBuf = s.txBuf := rfl
@[simp] theorem afterWrite_txIdx (b : Byte) (s : State) : (afterWrite b s).txIdx = s.txIdx := rfl
@[simp] theorem afterWrite_rxNacks (b : Byte) (s : State) : (afterWrite b s).rxNacks = s.rxNacks := rfl
@[simp] theorem afterWrite_status (b : Byte) (s : State) : (afterWrite b s).status = s.status := rfl
@[simp] theorem afterWrite_diag (b : Byte) (s : State) : (afterWrite b s).diag = s.diag := rfl
@[simp] theorem afterWrite_result (b : Byte) (s : State) : (afterWrite b s).result = s.result := rfl
@[simp] theorem afterWrite_claimed (b : Byte) (s : State) : (afterWrite b s).claimed = s.claimed := rfl
@[simp] theorem afterWrite_handle (b : Byte) (s : State) : (afterWrite b s).handle = s.handle := rfl
@[simp] theorem afterWrite_invoke (b : Byte) (s : State) : (afterWrite b s).invoke = s.invoke := rfl
@[simp] theorem afterWrite_ending (b : Byte) (s : State) : (afterWrite b s).ending = s.ending := rfl
@[simp] theorem afterWrite_inbound (b : Byte) (s : State) : (afterWrite b s).inbound = s.inbound := rfl
@[simp] theorem afterWrite_outbound (b : Byte) (s : State) : (afterWrite b s).outbound = s.outbound ++ [b] := rfl
@[simp] theorem afterWrite_portOpen (b : Byte) (s : State) : (afterWrite b s).portOpen = s.portOpen := rfl
@[simp] theorem afterWrite_trace (b : Byte) (s : State) :
    (afterWrite b s).trace = s.trace ++ [⟨writeDir s.params.role, .byte b⟩] := rfl
@[simp] theorem afterWrite_inputs (b : Byte) (s : State) : (afterWrite b s).inputs = s.inputs := rfl
@[simp] theorem afterWrite_free (b : Byte) (s : State) : (afterWrite b s).free = s.free := rfl

/-! ### afterClosedWrite -/

@[simp] theorem afterClosedWrite_params (s : State) : (afterClosedWrite s).params = s.params := rfl
@[simp] theorem afterClosedWrite_crc (s : State) : (afterClosedWrite s).crc = s.crc := rfl
@[simp] theorem afterClosedWrite_dec (s : State) : (afterClosedWrite s).dec = s.dec := rfl
@[simp] theorem afterClosedWrite_phase (s : State) : (afterClosedWrite s).phase = s.phase := rfl
@[simp] theorem afterClosedWrite_txBuf (s : State) : (afterClosedWrite s).txBuf = s.txBuf := rfl
@[simp] theorem afterClosedWrite_txIdx (s : State) : (afterClosedWrite s).txIdx = s.txIdx := rfl
@[simp] theorem afterClosedWrite_rxNacks (s : State) : (afterClosedWrite s).rxNacks = s.rxNacks := rfl
@[simp] theorem afterClosedWrite_status (s : State) : (afterClosedWrite s).status = s.status := rfl
@[simp] theorem afterClosedWrite_diag (s : State) : (afterClosedWrite s).diag = s.diag := rfl
@[simp] theorem afterClosedWrite_result (s : State) : (afterClosedWrite s).result = s.result := rfl
@[simp] theorem afterClosedWrite_claimed (s : State) : (afterClosedWrite s).claimed = s.claimed := rfl
@[simp] theorem afterClosedWrite_handle (s : State) : (afterClosedWrite s).handle = s.handle := rfl
@[simp] theorem afterClosedWrite_invoke (s : State) : (afterClosedWrite s).invoke = s.invoke := rfl
@[simp] theorem afterClosedWrite_ending (s : State) : (afterClosedWrite s).ending = s.ending := rfl
@[simp] theorem afterClosedWrite_inbound (s : State) : (afterClosedWrite s).inbound = s.inbound := rfl
@[simp] theorem afterClosedWrite_outbound (s : State) : (afterClosedWrite s).outbound = s.outbound := rfl
@[simp] theorem afterClosedWrite_portOpen (s : State) : (afterClosedWrite s).portOpen = s.portOpen := rfl
@[simp] theorem afterClosedWrite_trace (s : State) :
    (afterClosedWrite s).trace = s.trace ++ [⟨writeDir s.params.role, .closed⟩] := rfl
@[simp] theorem afterClosedWrite_inputs (s : State) : (afterClosedWrite s).inputs = s.inputs := rfl
@[simp] theorem afterClosedWrite_free (s : State) : (afterClosedWrite s).free = s.free := rfl

/-! ### arrive -/

@[simp] theorem arrive_params (bs : List Byte) (s : State) : (arrive bs s).params = s.params := rfl
@[simp] theorem arrive_crc (bs : List Byte) (s : State) : (arrive bs s).crc = s.crc := rfl
@[simp] theorem arrive_dec (bs : List Byte) (s : State) : (arrive bs s).dec = s.dec := rfl
@[simp] theorem arrive_phase (bs : List Byte) (s : State) : (arrive bs s).phase = s.phase := rfl
@[simp] theorem arrive_txBuf (bs : List Byte) (s : State) : (arrive bs s).txBuf = s.txBuf := rfl
@[simp] theorem arrive_txIdx (bs : List Byte) (s : State) : (arrive bs s).txIdx = s.txIdx := rfl
@[simp] theorem arrive_rxNacks (bs : List Byte) (s : State) : (arrive bs s).rxNacks = s.rxNacks := rfl
@[simp] theorem arrive_status (bs : List Byte) (s : State) : (arrive bs s).status = s.status := rfl
@[simp] theorem arrive_diag (bs : List Byte) (s : State) : (arrive bs s).diag = s.diag := rfl
@[simp] theorem arrive_result (bs : List Byte) (s : State) : (arrive bs s).result = s.result := rfl
@[simp] theorem arrive_claimed (bs : List Byte) (s : State) : (arrive bs s).claimed = s.claimed := rfl
@[simp] theorem arrive_handle (bs : List Byte) (s : State) : (arrive bs s).handle = s.handle := rfl
@[simp] theorem arrive_invoke (bs : List Byte) (s : State) : (arrive bs s).invoke = s.invoke := rfl
@[simp] theorem arrive_ending (bs : List Byte) (s : State) : (arrive bs s).ending = s.ending := rfl
@[simp] theorem arrive_inbound (bs : List Byte) (s : State) : (arrive bs s).inbound = s.inbound ++ bs := rfl
@[simp] theorem arrive_outbound (bs : List Byte) (s : State) : (arrive bs s).outbound = s.outbound := rfl
@[simp] theorem arrive_portOpen (bs : List Byte) (s : State) : (arrive bs s).portOpen = s.portOpen := rfl
@[simp] theorem arrive_trace (bs : List Byte) (s : State) : (arrive bs s).trace = s.trace := rfl
@[simp] theorem arrive_inputs (bs : List Byte) (s : State) : (arrive bs s).inputs = s.inputs := rfl
@[simp] theorem arrive_free (bs : List Byte) (s : State) : (arrive bs s).free = s.free := rfl

/-! ### endWith -/

@[simp] theorem endWith_params (e : Ending) (s : State) : (endWith e s).params = s.params := rfl
@[simp] theorem endWith_crc (e : Ending) (s : State) : (endWith e s).crc = s.crc := rfl
@[simp] theorem endWith_dec (e : Ending) (s : State) : (endWith e s).dec = s.dec := rfl
@[simp] theorem endWith_phase (e : Ending) (s : State) : (endWith e s).phase = s.phase := rfl
@[simp] theorem endWith_txBuf (e : Ending) (s : State) : (endWith e s).txBuf = s.txBuf := rfl
@[simp] theorem endWith_txIdx (e : Ending) (s : State) : (endWith e s).txIdx = s.txIdx := rfl
@[simp] theorem endWith_rxNacks (e : Ending) (s : State) : (endWith e s).rxNacks = s.rxNacks := rfl
@[simp] theorem endWith_status (e : Ending) (s : State) : (endWith e s).status = s.status := rfl
@[simp] theorem endWith_diag (e : Ending) (s : State) : (endWith e s).diag = s.diag := rfl
@[simp] theorem endWith_result (e : Ending) (s : State) : (endWith e s).result = s.result := rfl
@[simp] theorem endWith_claimed (e : Ending) (s : State) : (endWith e s).claimed = s.claimed := rfl
@[simp] theorem endWith_handle (e : Ending) (s : State) : (endWith e s).handle = s.handle := rfl
@[simp] theorem endWith_invoke (e : Ending) (s : State) : (endWith e s).invoke = s.invoke := rfl
@[simp] theorem endWith_ending (e : Ending) (s : State) : (endWith e s).ending = some e := rfl
@[simp] theorem endWith_inbound (e : Ending) (s : State) : (endWith e s).inbound = s.inbound := rfl
@[simp] theorem endWith_outbound (e : Ending) (s : State) : (endWith e s).outbound = s.outbound := rfl
@[simp] theorem endWith_portOpen (e : Ending) (s : State) : (endWith e s).portOpen = s.portOpen := rfl
@[simp] theorem endWith_trace (e : Ending) (s : State) : (endWith e s).trace = s.trace := rfl
@[simp] theorem endWith_inputs (e : Ending) (s : State) : (endWith e s).inputs = s.inputs := rfl
@[simp] theorem endWith_free (e : Ending) (s : State) : (endWith e s).free = s.free := rfl

/-! ### takeFailure -/

@[simp] theorem takeFailure_params (st : Status) (d : Diag) (s : State) :
    (takeFailure st d s).params = s.params := rfl
@[simp] theorem takeFailure_crc (st : Status) (d : Diag) (s : State) : (takeFailure st d s).crc = s.crc := rfl
@[simp] theorem takeFailure_dec (st : Status) (d : Diag) (s : State) : (takeFailure st d s).dec = s.dec := rfl
@[simp] theorem takeFailure_phase (st : Status) (d : Diag) (s : State) : (takeFailure st d s).phase = .idle := rfl
@[simp] theorem takeFailure_txBuf (st : Status) (d : Diag) (s : State) : (takeFailure st d s).txBuf = s.txBuf := rfl
@[simp] theorem takeFailure_txIdx (st : Status) (d : Diag) (s : State) : (takeFailure st d s).txIdx = s.txIdx := rfl
@[simp] theorem takeFailure_rxNacks (st : Status) (d : Diag) (s : State) :
    (takeFailure st d s).rxNacks = s.rxNacks := rfl
@[simp] theorem takeFailure_status (st : Status) (d : Diag) (s : State) : (takeFailure st d s).status = st := rfl
@[simp] theorem takeFailure_diag (st : Status) (d : Diag) (s : State) : (takeFailure st d s).diag = d := rfl
@[simp] theorem takeFailure_result (st : Status) (d : Diag) (s : State) :
    (takeFailure st d s).result = if s.phase.receiving then none else s.result := rfl
@[simp] theorem takeFailure_claimed (st : Status) (d : Diag) (s : State) :
    (takeFailure st d s).claimed = s.claimed := rfl
@[simp] theorem takeFailure_handle (st : Status) (d : Diag) (s : State) :
    (takeFailure st d s).handle = s.handle := rfl
@[simp] theorem takeFailure_invoke (st : Status) (d : Diag) (s : State) : (takeFailure st d s).invoke = none := rfl
@[simp] theorem takeFailure_ending (st : Status) (d : Diag) (s : State) :
    (takeFailure st d s).ending = some (failureEnding s st) := rfl
@[simp] theorem takeFailure_inbound (st : Status) (d : Diag) (s : State) :
    (takeFailure st d s).inbound = s.inbound := rfl
@[simp] theorem takeFailure_outbound (st : Status) (d : Diag) (s : State) :
    (takeFailure st d s).outbound = s.outbound := rfl
@[simp] theorem takeFailure_portOpen (st : Status) (d : Diag) (s : State) :
    (takeFailure st d s).portOpen = s.portOpen := rfl
@[simp] theorem takeFailure_trace (st : Status) (d : Diag) (s : State) : (takeFailure st d s).trace = s.trace := rfl
@[simp] theorem takeFailure_inputs (st : Status) (d : Diag) (s : State) :
    (takeFailure st d s).inputs = s.inputs := rfl
@[simp] theorem takeFailure_free (st : Status) (d : Diag) (s : State) : (takeFailure st d s).free = s.free := rfl

/-! ### takeSuccess -/

@[simp] theorem takeSuccess_params (e : Ending) (s : State) : (takeSuccess e s).params = s.params := rfl
@[simp] theorem takeSuccess_crc (e : Ending) (s : State) : (takeSuccess e s).crc = s.crc := rfl
@[simp] theorem takeSuccess_dec (e : Ending) (s : State) : (takeSuccess e s).dec = s.dec := rfl
@[simp] theorem takeSuccess_phase (e : Ending) (s : State) : (takeSuccess e s).phase = .idle := rfl
@[simp] theorem takeSuccess_txBuf (e : Ending) (s : State) : (takeSuccess e s).txBuf = s.txBuf := rfl
@[simp] theorem takeSuccess_txIdx (e : Ending) (s : State) : (takeSuccess e s).txIdx = s.txIdx := rfl
@[simp] theorem takeSuccess_rxNacks (e : Ending) (s : State) : (takeSuccess e s).rxNacks = s.rxNacks := rfl
@[simp] theorem takeSuccess_status (e : Ending) (s : State) : (takeSuccess e s).status = .success := rfl
@[simp] theorem takeSuccess_diag (e : Ending) (s : State) : (takeSuccess e s).diag = .none := rfl
@[simp] theorem takeSuccess_result (e : Ending) (s : State) : (takeSuccess e s).result = s.result := rfl
@[simp] theorem takeSuccess_claimed (e : Ending) (s : State) : (takeSuccess e s).claimed = s.claimed := rfl
@[simp] theorem takeSuccess_handle (e : Ending) (s : State) : (takeSuccess e s).handle = s.handle := rfl
@[simp] theorem takeSuccess_invoke (e : Ending) (s : State) : (takeSuccess e s).invoke = none := rfl
@[simp] theorem takeSuccess_ending (e : Ending) (s : State) : (takeSuccess e s).ending = some e := rfl
@[simp] theorem takeSuccess_inbound (e : Ending) (s : State) : (takeSuccess e s).inbound = s.inbound := rfl
@[simp] theorem takeSuccess_outbound (e : Ending) (s : State) : (takeSuccess e s).outbound = s.outbound := rfl
@[simp] theorem takeSuccess_portOpen (e : Ending) (s : State) : (takeSuccess e s).portOpen = s.portOpen := rfl
@[simp] theorem takeSuccess_trace (e : Ending) (s : State) : (takeSuccess e s).trace = s.trace := rfl
@[simp] theorem takeSuccess_inputs (e : Ending) (s : State) : (takeSuccess e s).inputs = s.inputs := rfl
@[simp] theorem takeSuccess_free (e : Ending) (s : State) : (takeSuccess e s).free = s.free := rfl

/-! ### startSend -/

@[simp] theorem startSend_params (f : List Byte) (s : State) : (startSend f s).params = s.params := rfl
@[simp] theorem startSend_crc (f : List Byte) (s : State) : (startSend f s).crc = s.crc := rfl
@[simp] theorem startSend_dec (f : List Byte) (s : State) : (startSend f s).dec = s.dec := rfl
@[simp] theorem startSend_phase (f : List Byte) (s : State) : (startSend f s).phase = .txWrite := rfl
@[simp] theorem startSend_txBuf (f : List Byte) (s : State) : (startSend f s).txBuf = f := rfl
@[simp] theorem startSend_txIdx (f : List Byte) (s : State) : (startSend f s).txIdx = 0 := rfl
@[simp] theorem startSend_rxNacks (f : List Byte) (s : State) : (startSend f s).rxNacks = s.rxNacks := rfl
@[simp] theorem startSend_status (f : List Byte) (s : State) : (startSend f s).status = s.status := rfl
@[simp] theorem startSend_diag (f : List Byte) (s : State) : (startSend f s).diag = s.diag := rfl
@[simp] theorem startSend_result (f : List Byte) (s : State) : (startSend f s).result = s.result := rfl
@[simp] theorem startSend_claimed (f : List Byte) (s : State) : (startSend f s).claimed = s.claimed := rfl
@[simp] theorem startSend_handle (f : List Byte) (s : State) : (startSend f s).handle = s.handle := rfl
@[simp] theorem startSend_invoke (f : List Byte) (s : State) : (startSend f s).invoke = s.invoke := rfl
@[simp] theorem startSend_ending (f : List Byte) (s : State) : (startSend f s).ending = s.ending := rfl
@[simp] theorem startSend_inbound (f : List Byte) (s : State) : (startSend f s).inbound = s.inbound := rfl
@[simp] theorem startSend_outbound (f : List Byte) (s : State) : (startSend f s).outbound = s.outbound := rfl
@[simp] theorem startSend_portOpen (f : List Byte) (s : State) : (startSend f s).portOpen = s.portOpen := rfl
@[simp] theorem startSend_trace (f : List Byte) (s : State) : (startSend f s).trace = s.trace := rfl
@[simp] theorem startSend_inputs (f : List Byte) (s : State) : (startSend f s).inputs = s.inputs := rfl
@[simp] theorem startSend_free (f : List Byte) (s : State) : (startSend f s).free = s.free := rfl

/-! ### startRecv -/

@[simp] theorem startRecv_params (s : State) : (startRecv s).params = s.params := rfl
@[simp] theorem startRecv_crc (s : State) : (startRecv s).crc = s.crc := rfl
@[simp] theorem startRecv_dec (s : State) : (startRecv s).dec = Accumulator.empty := rfl
@[simp] theorem startRecv_phase (s : State) : (startRecv s).phase = .rxWait := rfl
@[simp] theorem startRecv_txBuf (s : State) : (startRecv s).txBuf = s.txBuf := rfl
@[simp] theorem startRecv_txIdx (s : State) : (startRecv s).txIdx = s.txIdx := rfl
@[simp] theorem startRecv_rxNacks (s : State) : (startRecv s).rxNacks = 0 := rfl
@[simp] theorem startRecv_status (s : State) : (startRecv s).status = s.status := rfl
@[simp] theorem startRecv_diag (s : State) : (startRecv s).diag = s.diag := rfl
@[simp] theorem startRecv_result (s : State) : (startRecv s).result = none := rfl
@[simp] theorem startRecv_claimed (s : State) : (startRecv s).claimed = s.claimed := rfl
@[simp] theorem startRecv_handle (s : State) : (startRecv s).handle = s.handle := rfl
@[simp] theorem startRecv_invoke (s : State) : (startRecv s).invoke = s.invoke := rfl
@[simp] theorem startRecv_ending (s : State) : (startRecv s).ending = s.ending := rfl
@[simp] theorem startRecv_inbound (s : State) : (startRecv s).inbound = s.inbound := rfl
@[simp] theorem startRecv_outbound (s : State) : (startRecv s).outbound = s.outbound := rfl
@[simp] theorem startRecv_portOpen (s : State) : (startRecv s).portOpen = s.portOpen := rfl
@[simp] theorem startRecv_trace (s : State) : (startRecv s).trace = s.trace := rfl
@[simp] theorem startRecv_inputs (s : State) : (startRecv s).inputs = s.inputs := rfl
@[simp] theorem startRecv_free (s : State) : (startRecv s).free = s.free := rfl

/-! ### respond -/

@[simp] theorem respond_params (k : Byte) (f : Frame) (s : State) : (respond k f s).params = s.params := rfl
@[simp] theorem respond_crc (k : Byte) (f : Frame) (s : State) : (respond k f s).crc = s.crc := rfl
@[simp] theorem respond_dec (k : Byte) (f : Frame) (s : State) : (respond k f s).dec = s.dec := rfl
@[simp] theorem respond_phase (k : Byte) (f : Frame) (s : State) : (respond k f s).phase = .idle := rfl
@[simp] theorem respond_txBuf (k : Byte) (f : Frame) (s : State) : (respond k f s).txBuf = s.txBuf := rfl
@[simp] theorem respond_txIdx (k : Byte) (f : Frame) (s : State) : (respond k f s).txIdx = s.txIdx := rfl
@[simp] theorem respond_rxNacks (k : Byte) (f : Frame) (s : State) : (respond k f s).rxNacks = s.rxNacks := rfl
@[simp] theorem respond_status (k : Byte) (f : Frame) (s : State) : (respond k f s).status = responseStatus k f := rfl
@[simp] theorem respond_diag (k : Byte) (f : Frame) (s : State) : (respond k f s).diag = .none := rfl
@[simp] theorem respond_result (k : Byte) (f : Frame) (s : State) : (respond k f s).result = s.result := rfl
@[simp] theorem respond_claimed (k : Byte) (f : Frame) (s : State) : (respond k f s).claimed = s.claimed := rfl
@[simp] theorem respond_handle (k : Byte) (f : Frame) (s : State) : (respond k f s).handle = s.handle := rfl
@[simp] theorem respond_invoke (k : Byte) (f : Frame) (s : State) : (respond k f s).invoke = none := rfl
@[simp] theorem respond_ending (k : Byte) (f : Frame) (s : State) :
    (respond k f s).ending = some (.invoked (responseStatus k f)
      (if responseStatus k f = .success then some (decodeResult k f.payload) else none)) := rfl
@[simp] theorem respond_inbound (k : Byte) (f : Frame) (s : State) : (respond k f s).inbound = s.inbound := rfl
@[simp] theorem respond_outbound (k : Byte) (f : Frame) (s : State) : (respond k f s).outbound = s.outbound := rfl
@[simp] theorem respond_portOpen (k : Byte) (f : Frame) (s : State) : (respond k f s).portOpen = s.portOpen := rfl
@[simp] theorem respond_trace (k : Byte) (f : Frame) (s : State) : (respond k f s).trace = s.trace := rfl
@[simp] theorem respond_inputs (k : Byte) (f : Frame) (s : State) : (respond k f s).inputs = s.inputs := rfl
@[simp] theorem respond_free (k : Byte) (f : Frame) (s : State) : (respond k f s).free = s.free := rfl

/-! ### countNack -/

@[simp] theorem countNack_params (s : State) : (countNack s).params = s.params := rfl
@[simp] theorem countNack_crc (s : State) : (countNack s).crc = s.crc := rfl
@[simp] theorem countNack_dec (s : State) : (countNack s).dec = s.dec := rfl
@[simp] theorem countNack_phase (s : State) : (countNack s).phase = s.phase := rfl
@[simp] theorem countNack_txBuf (s : State) : (countNack s).txBuf = s.txBuf := rfl
@[simp] theorem countNack_txIdx (s : State) : (countNack s).txIdx = s.txIdx := rfl
@[simp] theorem countNack_rxNacks (s : State) :
    (countNack s).rxNacks = if ackByte s.params s.dec = Config.nack then s.rxNacks + 1 else s.rxNacks := rfl
@[simp] theorem countNack_status (s : State) : (countNack s).status = s.status := rfl
@[simp] theorem countNack_diag (s : State) : (countNack s).diag = s.diag := rfl
@[simp] theorem countNack_result (s : State) : (countNack s).result = s.result := rfl
@[simp] theorem countNack_claimed (s : State) : (countNack s).claimed = s.claimed := rfl
@[simp] theorem countNack_handle (s : State) : (countNack s).handle = s.handle := rfl
@[simp] theorem countNack_invoke (s : State) : (countNack s).invoke = s.invoke := rfl
@[simp] theorem countNack_ending (s : State) : (countNack s).ending = s.ending := rfl
@[simp] theorem countNack_inbound (s : State) : (countNack s).inbound = s.inbound := rfl
@[simp] theorem countNack_outbound (s : State) : (countNack s).outbound = s.outbound := rfl
@[simp] theorem countNack_portOpen (s : State) : (countNack s).portOpen = s.portOpen := rfl
@[simp] theorem countNack_trace (s : State) : (countNack s).trace = s.trace := rfl
@[simp] theorem countNack_inputs (s : State) : (countNack s).inputs = s.inputs := rfl
@[simp] theorem countNack_free (s : State) : (countNack s).free = s.free := rfl

/-! ### claimPort -/

@[simp] theorem claimPort_params (p : Option PortName) (s : State) : (claimPort p s).params = s.params := rfl
@[simp] theorem claimPort_crc (p : Option PortName) (s : State) : (claimPort p s).crc = s.crc := rfl
@[simp] theorem claimPort_dec (p : Option PortName) (s : State) : (claimPort p s).dec = s.dec := rfl
@[simp] theorem claimPort_phase (p : Option PortName) (s : State) : (claimPort p s).phase = s.phase := rfl
@[simp] theorem claimPort_txBuf (p : Option PortName) (s : State) : (claimPort p s).txBuf = s.txBuf := rfl
@[simp] theorem claimPort_txIdx (p : Option PortName) (s : State) : (claimPort p s).txIdx = s.txIdx := rfl
@[simp] theorem claimPort_rxNacks (p : Option PortName) (s : State) : (claimPort p s).rxNacks = s.rxNacks := rfl
@[simp] theorem claimPort_status (p : Option PortName) (s : State) : (claimPort p s).status = s.status := rfl
@[simp] theorem claimPort_diag (p : Option PortName) (s : State) : (claimPort p s).diag = s.diag := rfl
@[simp] theorem claimPort_result (p : Option PortName) (s : State) : (claimPort p s).result = s.result := rfl
@[simp] theorem claimPort_claimed (p : Option PortName) (s : State) :
    (claimPort p s).claimed = (p.isSome || s.claimed) := rfl
@[simp] theorem claimPort_handle (p : Option PortName) (s : State) :
    (claimPort p s).handle = p.orElse fun _ => s.handle := rfl
@[simp] theorem claimPort_invoke (p : Option PortName) (s : State) : (claimPort p s).invoke = s.invoke := rfl
@[simp] theorem claimPort_ending (p : Option PortName) (s : State) :
    (claimPort p s).ending = some (claimEnding p) := rfl
@[simp] theorem claimPort_inbound (p : Option PortName) (s : State) : (claimPort p s).inbound = s.inbound := rfl
@[simp] theorem claimPort_outbound (p : Option PortName) (s : State) : (claimPort p s).outbound = s.outbound := rfl
@[simp] theorem claimPort_portOpen (p : Option PortName) (s : State) :
    (claimPort p s).portOpen = (p.isSome || s.portOpen) := rfl
@[simp] theorem claimPort_trace (p : Option PortName) (s : State) : (claimPort p s).trace = s.trace := rfl
@[simp] theorem claimPort_inputs (p : Option PortName) (s : State) : (claimPort p s).inputs = s.inputs := rfl
@[simp] theorem claimPort_free (p : Option PortName) (s : State) : (claimPort p s).free = s.free + 1 := rfl

/-! ### sendNotEncoded -/

@[simp] theorem sendNotEncoded_params (e : CodecError) (s : State) : (sendNotEncoded e s).params = s.params := rfl
@[simp] theorem sendNotEncoded_crc (e : CodecError) (s : State) : (sendNotEncoded e s).crc = s.crc := rfl
@[simp] theorem sendNotEncoded_dec (e : CodecError) (s : State) : (sendNotEncoded e s).dec = s.dec := rfl
@[simp] theorem sendNotEncoded_phase (e : CodecError) (s : State) : (sendNotEncoded e s).phase = s.phase := rfl
@[simp] theorem sendNotEncoded_txBuf (e : CodecError) (s : State) : (sendNotEncoded e s).txBuf = s.txBuf := rfl
@[simp] theorem sendNotEncoded_txIdx (e : CodecError) (s : State) : (sendNotEncoded e s).txIdx = s.txIdx := rfl
@[simp] theorem sendNotEncoded_rxNacks (e : CodecError) (s : State) : (sendNotEncoded e s).rxNacks = s.rxNacks := rfl
@[simp] theorem sendNotEncoded_status (e : CodecError) (s : State) : (sendNotEncoded e s).status = s.status := rfl
@[simp] theorem sendNotEncoded_diag (e : CodecError) (s : State) : (sendNotEncoded e s).diag = .encode := rfl
@[simp] theorem sendNotEncoded_result (e : CodecError) (s : State) : (sendNotEncoded e s).result = s.result := rfl
@[simp] theorem sendNotEncoded_claimed (e : CodecError) (s : State) : (sendNotEncoded e s).claimed = s.claimed := rfl
@[simp] theorem sendNotEncoded_handle (e : CodecError) (s : State) : (sendNotEncoded e s).handle = s.handle := rfl
@[simp] theorem sendNotEncoded_invoke (e : CodecError) (s : State) : (sendNotEncoded e s).invoke = s.invoke := rfl
@[simp] theorem sendNotEncoded_ending (e : CodecError) (s : State) :
    (sendNotEncoded e s).ending = some (.codecError e) := rfl
@[simp] theorem sendNotEncoded_inbound (e : CodecError) (s : State) : (sendNotEncoded e s).inbound = s.inbound := rfl
@[simp] theorem sendNotEncoded_outbound (e : CodecError) (s : State) :
    (sendNotEncoded e s).outbound = s.outbound := rfl
@[simp] theorem sendNotEncoded_portOpen (e : CodecError) (s : State) :
    (sendNotEncoded e s).portOpen = s.portOpen := rfl
@[simp] theorem sendNotEncoded_trace (e : CodecError) (s : State) : (sendNotEncoded e s).trace = s.trace := rfl
@[simp] theorem sendNotEncoded_inputs (e : CodecError) (s : State) : (sendNotEncoded e s).inputs = s.inputs := rfl
@[simp] theorem sendNotEncoded_free (e : CodecError) (s : State) : (sendNotEncoded e s).free = s.free := rfl

/-! ### resetEvent -/

@[simp] theorem resetEvent_params (s : State) : (resetEvent s).params = s.params := rfl
@[simp] theorem resetEvent_crc (s : State) : (resetEvent s).crc = 0x00#8 := rfl
@[simp] theorem resetEvent_dec (s : State) : (resetEvent s).dec = Accumulator.empty := rfl
@[simp] theorem resetEvent_phase (s : State) : (resetEvent s).phase = .idle := rfl
@[simp] theorem resetEvent_txBuf (s : State) : (resetEvent s).txBuf = [] := rfl
@[simp] theorem resetEvent_txIdx (s : State) : (resetEvent s).txIdx = 0 := rfl
@[simp] theorem resetEvent_rxNacks (s : State) : (resetEvent s).rxNacks = 0 := rfl
@[simp] theorem resetEvent_status (s : State) : (resetEvent s).status = .success := rfl
@[simp] theorem resetEvent_diag (s : State) : (resetEvent s).diag = .none := rfl
@[simp] theorem resetEvent_result (s : State) : (resetEvent s).result = none := rfl
@[simp] theorem resetEvent_claimed (s : State) : (resetEvent s).claimed = false := rfl
@[simp] theorem resetEvent_handle (s : State) : (resetEvent s).handle = none := rfl
@[simp] theorem resetEvent_invoke (s : State) : (resetEvent s).invoke = none := rfl
@[simp] theorem resetEvent_ending (s : State) : (resetEvent s).ending = none := rfl
@[simp] theorem resetEvent_inbound (s : State) : (resetEvent s).inbound = s.inbound := rfl
@[simp] theorem resetEvent_outbound (s : State) : (resetEvent s).outbound = s.outbound := rfl
@[simp] theorem resetEvent_portOpen (s : State) : (resetEvent s).portOpen = s.portOpen := rfl
@[simp] theorem resetEvent_trace (s : State) : (resetEvent s).trace = s.trace := rfl
@[simp] theorem resetEvent_inputs (s : State) : (resetEvent s).inputs = s.inputs := rfl
@[simp] theorem resetEvent_free (s : State) : (resetEvent s).free = s.free := rfl

end Sys2Proof.Machine
end

