-- ==== Sys2Proof/Laws/Sequencer.lean ====
section
/-! SUPPORT. What the link primitives, the refusals and each step of the sequencer can do, said once (R180 to R199). -/

namespace Sys2Proof.Machine

open Sys2Proof

/-! ### LinkRead -/

theorem readAnswer_closed {s : State} (h : s.portOpen = false) : readAnswer s = .closed := by simp [readAnswer, h]

theorem readAnswer_timeout {s : State} (h : s.portOpen = true) (hi : s.inbound = []) : readAnswer s = .timeout := by
  simp [readAnswer, h, hi]

theorem readAnswer_byte {s : State} {b : Byte} {r : List Byte} (h : s.portOpen = true) (hi : s.inbound = b :: r) :
    readAnswer s = .byte b := by
  simp [readAnswer, h, hi]

/-- Everything `LinkRead` can answer, and when (R181). -/
theorem readAnswer_cases (s : State) :
    (s.portOpen = false ∧ readAnswer s = .closed) ∨
    (s.portOpen = true ∧ s.inbound = [] ∧ readAnswer s = .timeout) ∨
    (∃ b r, s.portOpen = true ∧ s.inbound = b :: r ∧ readAnswer s = .byte b) := by
  cases h : s.portOpen
  · exact .inl ⟨rfl, readAnswer_closed h⟩
  · cases hi : s.inbound with
    | nil => exact .inr (.inl ⟨rfl, rfl, readAnswer_timeout h hi⟩)
    | cons b r => exact .inr (.inr ⟨b, r, rfl, rfl, readAnswer_byte h hi⟩)

/-! ### Refusals -/

theorem transferRefusal_none {s : State} (h : s.phase = .idle) (hc : s.claimed = true) : transferRefusal s = none := by
  simp [transferRefusal, h, hc]

theorem transferRefusal_busy {s : State} (h : s.phase ≠ .idle) : transferRefusal s = some .busy := by
  simp [transferRefusal, h]

theorem transferRefusal_noPort {s : State} (h : s.phase = .idle) (hc : s.claimed = false) :
    transferRefusal s = some .noPort := by
  simp [transferRefusal, h, hc]

/-- A transfer is accepted exactly in `IDLE` with a port claimed (R186, R191). -/
theorem transferRefusal_eq_none {s : State} : transferRefusal s = none ↔ s.phase = .idle ∧ s.claimed = true := by
  unfold transferRefusal
  by_cases h : s.phase = .idle <;> cases hc : s.claimed <;> simp [h]

theorem busyRefusal_eq_none {s : State} : busyRefusal s = none ↔ s.phase = .idle := by
  unfold busyRefusal
  by_cases h : s.phase = .idle <;> simp [h]

theorem receiving_iff {p : Phase} : p.receiving = true ↔ p = .rxWait ∨ p = .rxReply := by cases p <;> decide

theorem accumulatorRefusal_eq_none {s : State} :
    accumulatorRefusal s = none ↔ s.phase ≠ .rxWait ∧ s.phase ≠ .rxReply := by
  unfold accumulatorRefusal
  cases h : s.phase <;> simp [Phase.receiving]

theorem accumulatorRefusal_busy {s : State} (h : s.phase = .rxWait ∨ s.phase = .rxReply) :
    accumulatorRefusal s = some .busy := by
  simp [accumulatorRefusal, receiving_iff.mpr h]

/-! ### The acknowledgment -/

/-- Every byte read is answered ACK or NACK (R193), and the two differ. -/
theorem ackByte_nack_iff (p : Params) (a : Accumulator) : ackByte p a = Config.nack ↔ expected p a = false := by
  unfold ackByte
  cases expected p a <;> decide

theorem expected_of_open {p : Params} {a : Accumulator} (h : a.exp = true) (hs : a.st ≠ .crcError) :
    expected p a = true := by
  simp [expected, h, hs]

theorem expected_of_rejected {p : Params} {a : Accumulator} (h : a.exp = false) : expected p a = false := by
  simp [expected, h]

/-! ### Ends of a transfer -/

theorem sendDone_none {s : State} (h : s.invoke = none) : sendDone s = takeSuccess .sent s := by simp [sendDone, h]

theorem sendDone_some {s : State} {k : Byte} (h : s.invoke = some k) :
    sendDone s = startRecv { s with status := .success, diag := .none } := by simp [sendDone, h]

theorem recvDone_none {s : State} (f : Frame) (h : s.invoke = none) :
    recvDone f s = takeSuccess (.frame f) { s with result := some f } := by simp [recvDone, h]

theorem recvDone_some {s : State} (f : Frame) {k : Byte} (h : s.invoke = some k) :
    recvDone f s = respond k f { s with result := some f } := by simp [recvDone, h]

theorem verdictFailure_never {s : State} (own : Status) (h : s.params.desync = .never) :
    verdictFailure own s = takeFailure own .none s := by simp [verdictFailure, h]

/-- What a verdict's failure leaves, whatever the policy: an entry of R262 with some failure status (R199). -/
theorem verdictFailure_cases (own : Status) (s : State) :
    ∃ st n, verdictFailure own s = takeFailure st .none { s with free := n } ∧
      (st = own ∨ st = .recvFrameNackError ∨ st = .recvFrameAckError ∨ st = .recvFrameSofError) := by
  unfold verdictFailure
  split
  · refine ⟨_, _, rfl, ?_⟩
    cases Config.desyncChoice s.free <;> simp [DesyncChoice.status]
  · exact ⟨own, s.free, rfl, .inl rfl⟩

/-- The kinds of end that leave `IDLE` behind, and the one that goes on with a reception. -/
theorem acked_cases (s : State) :
    (s.txIdx + 1 ≠ s.txLen ∧ acked s = { s with txIdx := s.txIdx + 1, phase := .txWrite }) ∨
    (s.txIdx + 1 = s.txLen ∧ s.invoke = none ∧ acked s = takeSuccess .sent { s with txIdx := s.txIdx + 1 }) ∨
    (∃ k, s.txIdx + 1 = s.txLen ∧ s.invoke = some k ∧
      acked s = startRecv { s with txIdx := s.txIdx + 1, status := .success, diag := .none }) := by
  by_cases h : s.txIdx + 1 = s.txLen
  · have e : acked s = sendDone { s with txIdx := s.txIdx + 1 } := if_pos h
    rcases Option.eq_none_or_eq_some s.invoke with hi | ⟨k, hi⟩
    · exact .inr (.inl ⟨h, hi, e.trans (sendDone_none hi)⟩)
    · exact .inr (.inr ⟨k, h, hi, e.trans (sendDone_some hi)⟩)
  · exact .inl ⟨h, if_neg h⟩

/-! ### Each step -/

@[simp] theorem sequence_idle {s : State} (h : s.phase = .idle) : sequence s = .next s := by simp [sequence, h]

theorem sequence_txWrite {s : State} (h : s.phase = .txWrite) : sequence s = stepTxWrite s := by simp [sequence, h]

theorem sequence_txWait {s : State} (h : s.phase = .txWait) : sequence s = stepTxWait s := by simp [sequence, h]

theorem sequence_rxWait {s : State} (h : s.phase = .rxWait) : sequence s = stepRxWait s := by simp [sequence, h]

theorem sequence_rxReply {s : State} (h : s.phase = .rxReply) : sequence s = stepRxReply s := by simp [sequence, h]

theorem stepTxWrite_open {s : State} {b : Byte} (hb : s.memRead .txBuf s.txIdx = some b) (h : s.portOpen = true) :
    stepTxWrite s = .next { afterWrite b s with phase := .txWait } := by simp [stepTxWrite, hb, h]

theorem stepTxWrite_closed {s : State} {b : Byte} (hb : s.memRead .txBuf s.txIdx = some b) (h : s.portOpen = false) :
    stepTxWrite s = .next (takeFailure .sendCmdFailure .closed (afterClosedWrite s)) := by simp [stepTxWrite, hb, h]

/-- Everything `TX_WRITE` can do (R187). -/
theorem stepTxWrite_next {s t : State} (h : stepTxWrite s = .next t) :
    ∃ b, s.memRead .txBuf s.txIdx = some b ∧
      ((s.portOpen = true ∧ t = { afterWrite b s with phase := .txWait }) ∨
        (s.portOpen = false ∧ t = takeFailure .sendCmdFailure .closed (afterClosedWrite s))) := by
  cases hb : s.memRead .txBuf s.txIdx with
  | none => simp [stepTxWrite, hb] at h
  | some b =>
    refine ⟨b, rfl, ?_⟩
    cases ho : s.portOpen
    · rw [stepTxWrite_closed hb ho] at h; exact .inr ⟨rfl, (Host.Outcome.next.inj h).symm⟩
    · rw [stepTxWrite_open hb ho] at h; exact .inl ⟨rfl, (Host.Outcome.next.inj h).symm⟩

/-- Everything `TX_WAIT` can do (R188). -/
theorem stepTxWait_cases (s : State) :
    (∃ r, s.portOpen = true ∧ s.inbound = Config.ack :: r ∧ stepTxWait s = .next (acked (afterRead s))) ∨
    (∃ d, ¬ (s.portOpen = true ∧ s.inbound.head? = some Config.ack) ∧
      stepTxWait s = .next (takeFailure .sendCmdFailure d (afterRead s)) ∧
      d = match readAnswer s with
        | .byte b => replyDiag b
        | .timeout => .timeout
        | .closed => .closed) := by
  rcases readAnswer_cases s with ⟨ho, ha⟩ | ⟨ho, hi, ha⟩ | ⟨b, r, ho, hi, ha⟩
  · exact .inr ⟨.closed, by simp [ho], by simp [stepTxWait, ha], by rw [ha]⟩
  · exact .inr ⟨.timeout, by simp [hi], by simp [stepTxWait, ha], by rw [ha]⟩
  · by_cases hb : b = Config.ack
    · subst hb
      exact .inl ⟨r, ho, hi, by simp [stepTxWait, ha]⟩
    · exact .inr ⟨replyDiag b, by simp [hi, hb], by simp [stepTxWait, ha, hb], by rw [ha]⟩

/-- Everything `RX_WAIT` can do (R192, R196). -/
theorem stepRxWait_cases (s : State) :
    (∃ b r, s.portOpen = true ∧ s.inbound = b :: r ∧
      stepRxWait s = .next { afterRead s with dec := s.dec.push b, phase := .rxReply }) ∨
    (∃ d, (s.portOpen = false ∧ d = Diag.closed ∨ s.portOpen = true ∧ s.inbound = [] ∧ d = Diag.timeout) ∧
      stepRxWait s = .next (takeFailure .recvPartialFrameValidationError d (afterRead s))) := by
  rcases readAnswer_cases s with ⟨ho, ha⟩ | ⟨ho, hi, ha⟩ | ⟨b, r, ho, hi, ha⟩
  · exact .inr ⟨.closed, .inl ⟨ho, rfl⟩, by simp [stepRxWait, ha]⟩
  · exact .inr ⟨.timeout, .inr ⟨ho, hi, rfl⟩, by simp [stepRxWait, ha]⟩
  · exact .inl ⟨b, r, ho, hi, by simp [stepRxWait, ha]⟩

theorem stepRxReply_open {s : State} (h : s.portOpen = true) :
    stepRxReply s = afterReply (afterWrite (ackByte s.params s.dec) (countNack s)) := by simp [stepRxReply, h]

theorem stepRxReply_closed {s : State} (h : s.portOpen = false) :
    stepRxReply s =
      .next (takeFailure .recvPartialFrameValidationError .closed (afterClosedWrite (countNack s))) := by
  simp [stepRxReply, h]

/-- Everything that can follow a written acknowledgment (R194). -/
theorem afterReply_next {s t : State} (h : afterReply s = .next t) :
    (s.dec.st = .incomplete ∧ t = { s with phase := .rxWait }) ∨
    (s.dec.st = .sofError ∧ t = verdictFailure .recvFrameSofError s) ∨
    (s.dec.st = .crcError ∧ t = verdictFailure .recvFrameCrcError s) ∨
    (∃ f, s.dec.st = .complete ∧ frameIn s.dec.buf = some f ∧ t = recvDone f s) := by
  unfold afterReply at h
  cases hs : s.dec.st with
  | incomplete => rw [hs] at h; exact .inl ⟨rfl, (Host.Outcome.next.inj h).symm⟩
  | sofError => rw [hs] at h; exact .inr (.inl ⟨rfl, (Host.Outcome.next.inj h).symm⟩)
  | crcError => rw [hs] at h; exact .inr (.inr (.inl ⟨rfl, (Host.Outcome.next.inj h).symm⟩))
  | complete =>
    rw [hs] at h
    cases hf : frameIn s.dec.buf with
    | none => simp [hf] at h
    | some f => simp only [hf] at h; exact .inr (.inr (.inr ⟨f, rfl, rfl, (Host.Outcome.next.inj h).symm⟩))

/-- Everything `RX_REPLY` can do (R194, R260). -/
theorem stepRxReply_next {s t : State} (h : stepRxReply s = .next t) :
    (s.portOpen = true ∧ afterReply (afterWrite (ackByte s.params s.dec) (countNack s)) = .next t) ∨
    (s.portOpen = false ∧
      t = takeFailure .recvPartialFrameValidationError .closed (afterClosedWrite (countNack s))) := by
  cases ho : s.portOpen
  · rw [stepRxReply_closed ho] at h; exact .inr ⟨rfl, (Host.Outcome.next.inj h).symm⟩
  · rw [stepRxReply_open ho] at h; exact .inl ⟨rfl, h⟩

end Sys2Proof.Machine
end

