-- ==== Sys2Proof/Laws/Session.lean ====
section
/-! SUPPORT. The session and the dispatch: what a probe's count means, what `INVOKE` can do before it sends, what `CLAIM` can
do, and what no operation touches. -/

namespace Sys2Proof.Machine

open Sys2Proof

/-! ### The probe (R234) -/

theorem ackedBefore_of_no_ack (p : Params) (k : Nat) {rs : List ProbeReply} (h : ∀ r ∈ rs, r.byte ≠ Config.ack) :
    ackedBefore p k rs = false := by
  induction rs generalizing k with
  | nil => cases k <;> rfl
  | cons r rs ih =>
    have hr : r.byte ≠ Config.ack := h r (by simp)
    have ht := fun k => ih k fun x hx => h x (by simp [hx])
    cases k with
    | zero => rfl
    | succ k => rw [ackedBefore, if_neg hr, ht k, ht (k + 1), ite_self]

theorem ackedBefore_of_few_nacks {p : Params} {k : Nat} {rs : List ProbeReply} (hk : probeNacks p rs < k)
    (h : ∃ r ∈ rs, r.byte = Config.ack) : ackedBefore p k rs = true := by
  induction rs generalizing k with
  | nil => simp at h
  | cons r rs ih =>
    cases k with
    | zero => simp at hk
    | succ k =>
      rw [ackedBefore]
      by_cases hr : r.byte = Config.ack
      · rw [if_pos hr]
      · have ht : ∃ x ∈ rs, x.byte = Config.ack := by
          obtain ⟨x, hx, hb⟩ := h
          rcases List.mem_cons.mp hx with rfl | hx
          · exact absurd hb hr
          · exact ⟨x, hx, hb⟩
        rw [if_neg hr]
        unfold probeNacks at hk ih
        by_cases hn : Sys2Proof.Machine.ProbeReply.countedNack p r = true
        · rw [List.filter_cons_of_pos hn, List.length_cons] at hk
          rw [if_pos hn]
          exact ih (by omega) ht
        · rw [List.filter_cons_of_neg hn] at hk
          rw [if_neg hn]
          exact ih hk ht

/-! ### INVOKE before it sends (R220 to R223) -/

/-- Everything the first stages of `INVOKE` can do: an early failure, or the request loaded. -/
theorem invokeStart_cases (kind : Byte) (args : Args) (s : State) :
    (∃ st d, invokeStart kind args s = takeFailure st d { s with invoke := some kind } ∧
      (st = .formatNoneError ∨ st = .shutdownVoltageOverSystemVal)) ∨
    (∃ payload, encodeArgs kind args = some payload ∧ payload.length ≤ 255 ∧ argMissing kind args = false ∧
      Config.guardViolated kind args = false ∧
      invokeStart kind args s = startSend (frameBytes kind payload) { s with invoke := some kind }) := by
  unfold invokeStart
  cases hm : argMissing kind args
  case true => exact .inl ⟨_, _, by simp; rfl, .inl rfl⟩
  cases hg : Config.guardViolated kind args
  case true => exact .inl ⟨_, _, by simp; rfl, .inr rfl⟩
  cases he : encodeArgs kind args with
  | none => exact .inl ⟨_, _, by simp; rfl, .inl rfl⟩
  | some payload =>
    by_cases hl : 255 < payload.length
    · exact .inl ⟨_, _, by simp [encodeFrame, Config.maxPayload, hl]; rfl, .inl rfl⟩
    · exact .inr ⟨payload, rfl, by omega, rfl, rfl, by simp [encodeFrame, Config.maxPayload, hl]⟩

/-! ### Dispatch -/

/-- What no operation and no symbol touches: the parameters, the inputs, the trace and what the block has written. -/
theorem exec_untouched {i : Instr} {s t : State} (h : exec i s = .next t) :
    t.params = s.params ∧ t.inputs = s.inputs ∧ t.trace = s.trace ∧ t.outbound = s.outbound := by
  cases i with
  | decRst => simp only [exec, execDecRst] at h; split at h <;> simp at h; subst h; exact ⟨rfl, rfl, rfl, rfl⟩
  | decPush b => simp only [exec, execDecPush] at h; split at h <;> simp at h; subst h; exact ⟨rfl, rfl, rfl, rfl⟩
  | decQry =>
    simp only [exec, execDecQry] at h
    split at h
    · split at h <;> simp at h; subst h; exact ⟨rfl, rfl, rfl, rfl⟩
    · simp at h; subst h; exact ⟨rfl, rfl, rfl, rfl⟩
  | sendFrame k p =>
    simp only [exec, execSendFrame] at h
    split at h
    · simp at h
    · split at h <;> simp at h <;> subst h <;> exact ⟨rfl, rfl, rfl, rfl⟩
  | recvFrame => simp only [exec, execRecvFrame] at h; split at h <;> simp at h; subst h; exact ⟨rfl, rfl, rfl, rfl⟩
  | invoke k a =>
    simp only [exec, execInvoke] at h
    split at h <;> simp at h
    subst h
    rcases invokeStart_cases k a s with ⟨_, _, e, -⟩ | ⟨_, -, -, -, -, e⟩ <;> rw [e] <;> exact ⟨rfl, rfl, rfl, rfl⟩
  | claim p => simp only [exec, execClaim] at h; split at h <;> simp at h; subst h; exact ⟨rfl, rfl, rfl, rfl⟩
  | reservedE => simp [exec, execReservedE] at h
  | reservedF => simp [exec, execReservedF] at h
  | _ =>
    simp only [exec, execCrcClr, execCrcUpd, execCrcRd, execChecksum, execEncode, execDecode, execRelease, execFrame,
      execAck, execNack, execFrameGetDi, execFrameGetLowPowerEnable] at h
    obtain rfl := Host.Outcome.next.inj h
    exact ⟨rfl, rfl, rfl, rfl⟩

end Sys2Proof.Machine
end

