-- ==== Sys2Proof/Tests/Slice0.lean ====
section
/-! SUPPORT. The model's own tests: the ill-formed terms that `Instr.wf` refuses, the decoding of one word for every
constructor, single steps with the results of `spec/95_test_vectors.md` (each test names its vector), and one witness for each
statement that has hypotheses. -/

namespace Sys2Proof.Tests

open Sys2Proof Sys2Proof.Machine

/-! ### Helpers -/

/-- The state of a step that goes on. -/
def next? : Host.Outcome State Fault Refusal → Option State
  | .next s => some s
  | .fault _ => none
  | .refused _ => none

/-- The refusal of a step that is refused. -/
def refusal? : Host.Outcome State Fault Refusal → Option Refusal
  | .next _ => none
  | .fault _ => none
  | .refused r => some r

/-- The start state of the vectors of section 2.4: reset, with a port claimed. -/
def ready : State := { State.reset with claimed := true, handle := some "p", portOpen := true }

/-- The accumulator after some bytes. -/
def pushed (bs : List Byte) : Accumulator := Accumulator.empty.pushAll bs

/-- A reception whose accumulator holds these bytes, in the phase given. -/
def receiving (phase : Phase) (bs : List Byte) : State := { ready with phase := phase, dec := pushed bs }

/-- The sender of the frame 01 CC 01 20 03 of V4.1, at the byte and in the phase given. -/
def sending (phase : Phase) (idx : Nat) : State :=
  { ready with phase := phase, txBuf := [0x01#8, 0xCC#8, 0x01#8, 0x20#8, 0x03#8], txIdx := idx }

/-- 256 bytes, one more than a frame can carry (R151). -/
def tooLong : List Byte := List.replicate 256 0

/-! ### Well-formedness: what `Instr.wf` refuses -/

theorem test_wf_frame_too_long : (Instr.frame 0 0x21#8 tooLong).wf = false := by decide +kernel
theorem test_wf_frame_low_power_too_long : (Instr.frameGetLowPowerEnable 0 tooLong).wf = false := by decide +kernel
theorem test_wf_frame_di_too_long : (Instr.frameGetDi 0 tooLong).wf = false := by decide +kernel
theorem test_wf_frame_of_low_power_kind : (Instr.frame 0 0x08#8 []).wf = false := by decide
theorem test_wf_frame_of_di_kind : (Instr.frame 0 0x20#8 [0x03#8]).wf = false := by decide
theorem test_wf_frame : (Instr.frame 0 0x21#8 [0x03#8]).wf = true := by decide

/-! ### Decoding: the codes of R104 and the wire formats of R91 and R97, written out -/

theorem test_decode_crcClr : decode (.op ⟨0b0000#4, []⟩) = .ok .crcClr := rfl
theorem test_decode_crcUpd : decode (.op ⟨0b0001#4, [.byte 0x08#8]⟩) = .ok (.crcUpd 0x08#8) := rfl
theorem test_decode_crcRd : decode (.op ⟨0b0010#4, []⟩) = .ok .crcRd := rfl
theorem test_decode_checksum : decode (.op ⟨0b0011#4, [.bytes [0x01#8]]⟩) = .ok (.checksum [0x01#8]) := rfl
theorem test_decode_encode :
    decode (.op ⟨0b0100#4, [.byte 0x20#8, .bytes [0x03#8]]⟩) = .ok (.encode 0x20#8 [0x03#8]) := rfl
theorem test_decode_decRst : decode (.op ⟨0b0101#4, []⟩) = .ok .decRst := rfl
theorem test_decode_decPush : decode (.op ⟨0b0110#4, [.byte 0x0D#8]⟩) = .ok (.decPush 0x0D#8) := rfl
theorem test_decode_decQry : decode (.op ⟨0b0111#4, []⟩) = .ok .decQry := rfl
theorem test_decode_decode : decode (.op ⟨0b1000#4, [.bytes [0x01#8]]⟩) = .ok (.decode [0x01#8]) := rfl
theorem test_decode_sendFrame :
    decode (.op ⟨0b1001#4, [.byte 0x08#8, .bytes []]⟩) = .ok (.sendFrame 0x08#8 []) := rfl
theorem test_decode_recvFrame : decode (.op ⟨0b1010#4, []⟩) = .ok .recvFrame := rfl
theorem test_decode_invoke :
    decode (.op ⟨0b1011#4, [.byte 0x20#8, .args [some [0x03#8]]]⟩) = .ok (.invoke 0x20#8 [some [0x03#8]]) := rfl
theorem test_decode_claim : decode (.op ⟨0b1100#4, [.port (some "p")]⟩) = .ok (.claim (some "p")) := rfl
theorem test_decode_release : decode (.op ⟨0b1101#4, []⟩) = .ok .release := rfl
theorem test_decode_reservedE : decode (.op ⟨0b1110#4, []⟩) = .ok .reservedE := rfl
theorem test_decode_reservedF : decode (.op ⟨0b1111#4, []⟩) = .ok .reservedF := rfl
theorem test_decode_ack : decode (.wire [0b00001101#8]) = .ok .ack := rfl
theorem test_decode_nack : decode (.wire [0b00000111#8]) = .ok .nack := rfl
/-- The request of S3: 00000001 00111000 00000000 00001000. -/
theorem test_decode_frameGetLowPowerEnable :
    decode (.wire [0b00000001#8, 0b00111000#8, 0b00000000#8, 0b00001000#8]) =
      .ok (.frameGetLowPowerEnable 0x38#8 []) := rfl
/-- The request of S5. -/
theorem test_decode_frameGetDi :
    decode (.wire [0b00000001#8, 0b11001100#8, 0b00000001#8, 0b00100000#8, 0b00000011#8]) =
      .ok (.frameGetDi 0xCC#8 [0x03#8]) := rfl
/-- V3.9. -/
theorem test_decode_frame :
    decode (.wire [0x01#8, 0xE2#8, 0b00000011#8, 0b00010000#8, 0x01#8, 0x07#8, 0x0D#8]) =
      .ok (.frame 0xE2#8 0x10#8 [0x01#8, 0x07#8, 0x0D#8]) := rfl
theorem test_decode_wrong_operands : decode (.op ⟨0b0001#4, []⟩) = .error .operandShape := rfl
theorem test_decode_no_symbol : decode (.wire [0x55#8]) = .error .notASymbol := rfl
theorem test_decode_truncated : decode (.wire [0x01#8, 0xCC#8, 0x01#8, 0x20#8]) = .error .truncatedFrame := rfl
theorem test_decode_trailing : decode (.wire [0x01#8, 0x38#8, 0x00#8, 0x08#8, 0x55#8]) = .error .trailingBytes := rfl

/-- Words of the opcode table: a code, and the header of a frame with its zero payload byte. -/
theorem test_table_words :
    decodeTableWord 8 0xA = some .recvFrame ∧ decodeTableWord 32 0x01CC0120 = some (.frameGetDi 0xCC#8 [0x00#8]) ∧
    decodeTableWord 32 0x01000000 = some (.frame 0x00#8 0x00#8 []) := by decide +kernel

/-! ### Single steps -/

/-- V2.42. -/
theorem test_crcClr : (next? (exec .crcClr { State.reset with crc := 0xCC#8 })).map (·.crc) = some 0x00#8 := by decide
/-- V2.10, V2.12. -/
theorem test_crcUpd : (next? (exec (.crcUpd 0x08#8) State.reset)).map (·.crc) = some 0x38#8 ∧
    (next? (exec (.crcUpd 0x20#8) { State.reset with crc := 0x07#8 })).map (·.crc) = some 0xF5#8 := by decide +kernel
/-- V2.29, the first read. -/
theorem test_crcRd : (next? (exec .crcRd { State.reset with crc := 0xF5#8 })).bind (·.ending) = some (.byte 0xF5#8) := by
  decide
/-- V2.6, V2.9. -/
theorem test_checksum :
    (next? (exec (.checksum [0x01#8, 0x20#8, 0x03#8]) State.reset)).map (·.crc) = some 0xCC#8 ∧
    (next? (exec (.checksum [0x31#8, 0x32#8, 0x33#8, 0x34#8, 0x35#8, 0x36#8, 0x37#8, 0x38#8, 0x39#8]) State.reset)).bind
      (·.ending) = some (.byte 0xF4#8) := by decide +kernel
/-- V3.1, with the register of V2.45. -/
theorem test_encode : (next? (exec (.encode 0x20#8 [0x03#8]) { State.reset with crc := 0x5A#8 })).map
    (fun t => (t.ending, t.crc)) = some (some (.bytes [0x01#8, 0xCC#8, 0x01#8, 0x20#8, 0x03#8]), 0x5A#8) := by
  decide +kernel
/-- V3.26. -/
theorem test_encode_too_long : (next? (exec (.encode 0x20#8 tooLong) State.reset)).bind (·.ending) =
    some (.codecError .valueError) := by decide +kernel
/-- V3.53, the reset after `SOF_ERROR`. -/
theorem test_decRst : (next? (exec .decRst { State.reset with dec := pushed [0x0D#8] })).map (·.dec) =
    some Accumulator.empty := by decide +kernel
/-- V3.51, the fifth push. -/
theorem test_decPush_last : (next? (exec (.decPush 0x00#8)
    { State.reset with dec := pushed [0x01#8, 0xC4#8, 0x01#8, 0x08#8] })).map (fun t => (t.ending, t.dec.n, t.dec.crc)) =
    some (some (.verdict .crcError true), 5, 0xC3#8) := by decide +kernel
/-- V3.54, the fifth push. -/
theorem test_decPush_terminal : (next? (exec (.decPush 0x55#8)
    { State.reset with dec := pushed [0x01#8, 0x38#8, 0x00#8, 0x08#8] })).map (fun t => (t.ending, t.dec.n, t.dec.crc)) =
    some (some (.verdict .complete false), 4, 0x38#8) := by decide +kernel
/-- V3.50 and V3.57. -/
theorem test_decQry : (next? (exec .decQry
    { State.reset with dec := pushed [0x01#8, 0xC4#8, 0x01#8, 0x08#8, 0x01#8] })).bind (·.ending) =
      some (.query .complete (some ⟨0x08#8, [0x01#8]⟩)) ∧
    (next? (exec .decQry State.reset)).bind (·.ending) = some (.query .incomplete none) := by decide +kernel
/-- V3.42 and V3.44. -/
theorem test_decode : (next? (exec (.decode [0x01#8, 0x38#8, 0x00#8, 0x08#8, 0x55#8]) State.reset)).bind (·.ending) =
      some (.frame ⟨0x08#8, []⟩) ∧
    (next? (exec (.decode [0x01#8, 0xC4#8, 0x01#8, 0x20#8]) State.reset)).bind (·.ending) =
      some (.codecError .partialFrameError) := by decide +kernel
/-- V4.1, the accepting step. -/
theorem test_sendFrame : (next? (exec (.sendFrame 0x20#8 [0x03#8]) ready)).map (fun t => (t.txBuf, t.txIdx, t.phase)) =
    some ([0x01#8, 0xCC#8, 0x01#8, 0x20#8, 0x03#8], 0, .txWrite) := by decide +kernel
/-- V4.9. -/
theorem test_sendFrame_too_long : (next? (exec (.sendFrame 0x20#8 tooLong) ready)).map
    (fun t => (t.diag, t.phase, t.txLen, t.trace)) = some (.encode, .idle, 0, []) := by decide +kernel
/-- V4.40, V4.41. -/
theorem test_no_port : refusal? (exec (.sendFrame 0x08#8 []) State.reset) = some .noPort ∧
    refusal? (exec .recvFrame State.reset) = some .noPort := by decide +kernel
/-- V4.42 to V4.44. -/
theorem test_busy : refusal? (exec (.sendFrame 0x08#8 []) (sending .txWait 0)) = some .busy ∧
    refusal? (exec (.decPush 0x00#8) (receiving .rxWait [])) = some .busy ∧
    (next? (exec (.checksum [0x08#8]) (receiving .rxWait []))).map (·.crc) = some 0x38#8 := by decide +kernel
/-- V4.11, the accepting step, which discards the caller's accumulator. -/
theorem test_recvFrame : (next? (exec .recvFrame { ready with dec := pushed [0x0D#8], rxNacks := 1 })).map
    (fun t => (t.dec, t.rxNacks, t.phase)) = some (Accumulator.empty, 0, .rxWait) := by decide +kernel
/-- V5.2: the pin is missing. -/
theorem test_invoke_missing : (next? (exec (.invoke 0x20#8 [none]) ready)).map (fun t => (t.ending, t.trace, t.statusReg)) =
    some (some (.invoked .formatNoneError none), [], 0xF7#8) := by decide +kernel
/-- V5.9: the automotive role without a port name (R233). -/
theorem test_claim_none : (next? (exec (.claim none)
    { State.reset with params := { device := .automotive } })).map (fun t => (t.ending, t.claimed)) =
    some (some .discoveryError, false) := by decide
/-- R231, R233: no name takes the place of the enumeration in the DIO role; the automotive role tries exactly the named port. -/
theorem test_portsToTry : portsToTry {} 0 (some "p") = portsToTry {} 0 none ∧
    portsToTry { device := .automotive } 0 (some "p") = ["p"] := ⟨rfl, rfl⟩
/-- R233: an automotive port that never responds is not claimed. -/
theorem test_probe_no_response : probePasses { device := .automotive } [] true = false := by decide
/-- V5.8: the verdicts on the two candidates. -/
theorem test_probe : probePasses {} (List.replicate 5 ⟨2500, 0x07#8⟩) true = false ∧
    probePasses {} [⟨0, 0x0D#8⟩] false = true := by decide
/-- V5.10. -/
theorem test_release : (next? (exec .release ready)).map (fun t => (t.claimed, t.handle)) = some (false, none) := by decide
theorem test_reserved : refusal? (exec .reservedE ready) = some (.reservedCode 0xE#4) ∧
    refusal? (exec .reservedF ready) = some (.reservedCode 0xF#4) := by decide
/-- The bytes of S5 in the order of R91. -/
theorem test_frameGetDi : (next? (exec (.frameGetDi 0xCC#8 [0x03#8]) State.reset)).map (·.inbound) =
    some [0x01#8, 0xCC#8, 0x01#8, 0x20#8, 0x03#8] := by decide
/-- The bytes of S3. -/
theorem test_frameGetLowPowerEnable : (next? (exec (.frameGetLowPowerEnable 0x38#8 []) State.reset)).map (·.inbound) =
    some [0x01#8, 0x38#8, 0x00#8, 0x08#8] := by decide
theorem test_frame : (next? (exec (.frame 0xE2#8 0x10#8 [0x01#8, 0x07#8, 0x0D#8]) State.reset)).map (·.inbound) =
    some [0x01#8, 0xE2#8, 0x03#8, 0x10#8, 0x01#8, 0x07#8, 0x0D#8] := by decide
theorem test_ack_nack : (next? (exec .ack { State.reset with inbound := [0x55#8] })).map (·.inbound) =
      some [0x55#8, 0x0D#8] ∧
    (next? (exec .nack State.reset)).map (·.inbound) = some [0x07#8] := by decide

/-- V4.1, the first write. -/
theorem test_txWrite : (next? (step (sending .txWrite 0))).map (fun t => (t.outbound, t.trace, t.phase)) =
    some ([0x01#8], [⟨.hostToPeer, .byte 0x01#8⟩], .txWait) := by decide
/-- V4.5, the second reply. -/
theorem test_txWait_other : (next? (step { sending .txWait 1 with inbound := [0x55#8] })).map
    (fun t => (t.statusReg, t.diag, t.txIdx)) = some (0xFF#8, .replyOther, 1) := by decide
/-- V4.14, the acknowledgment. -/
theorem test_rxReply_wrong_start : (next? (step (receiving .rxReply [0x0D#8]))).map
    (fun t => (t.statusReg, t.outbound, t.rxNacks)) = some (0xFA#8, [0x07#8], 1) := by decide +kernel
/-- V4.11, the last acknowledgment. -/
theorem test_rxReply_complete : (next? (step (receiving .rxReply [0x01#8, 0xC2#8, 0x01#8, 0x20#8, 0x01#8]))).map
    (fun t => (t.statusReg, t.result, t.outbound)) = some (0x00#8, some ⟨0x20#8, [0x01#8]⟩, [0x0D#8]) := by decide +kernel
/-- V4.16, the last acknowledgment. -/
theorem test_rxReply_crc_gated : (next? (step { receiving .rxReply [0x01#8, 0xC4#8, 0x01#8, 0x20#8, 0x01#8] with
    params := { lastByte := .crcGated } })).map (fun t => (t.statusReg, t.outbound, t.rxNacks)) =
    some (0xFC#8, [0x07#8], 1) := by decide +kernel
/-- V4.21, the fifth write. -/
theorem test_rxReply_closed : (next? (step { receiving .rxReply [0x01#8, 0xC2#8, 0x01#8, 0x20#8, 0x01#8] with
    portOpen := false })).map (fun t => (t.statusReg, t.diag, t.result, t.trace)) =
    some (0xF9#8, .closed, none, [⟨.hostToPeer, .closed⟩]) := by decide +kernel
/-- R194: the NACK is counted before its write, which the closed port then fails. -/
theorem test_rxReply_closed_nack : (next? (step { receiving .rxReply [0x0D#8] with portOpen := false })).map
    (fun t => (t.statusReg, t.rxNacks, t.outbound)) = some (0xF9#8, 1, []) := by decide +kernel
/-- V4.24: the status is one of three (R199). -/
theorem test_rxReply_any_after_nack : ∃ t, step { receiving .rxReply [0x0D#8] with
    params := { desync := .anyAfterNack } } = .next t ∧ t.rxNacks = 1 ∧
    t.statusReg ∈ [0xFA#8, 0xFD#8, 0xFB#8] := by
  refine ⟨_, rfl, rfl, ?_⟩
  show (DesyncChoice.status (Config.desyncChoice 0)).code ∈ [0xFA#8, 0xFD#8, 0xFB#8]
  cases Config.desyncChoice 0 <;> decide
/-- V4.7: the port is closed while the second reply is awaited; nothing but `CLAIM` opens it (R307). -/
theorem test_close_is_seen : (next? (step { sending .txWait 1 with inputs := [.closePort], inbound := [0x0D#8] })).bind
    (fun t => (next? (step t)).map fun u => (u.statusReg, u.diag, u.txIdx, u.inbound)) =
    some (0xFF#8, .closed, 1, [0x0D#8]) := by decide
/-- A word of the opcode table, presented after reset, is executed by the next step. -/
theorem test_withFetchWord : (next? (step (State.reset.withFetchWord 8 0x2))).bind (·.ending) = some (.byte 0x00#8) := by
  decide

/-! ### Witnesses: states and operands that meet the hypotheses of the statements -/

/-- Every state whose reception or transmission is as the rules leave it meets the invariant: the receiver after these bytes. -/
theorem inv_receiving_start : (receiving .rxWait []).Inv where
  dec := empty_inv
  txBuf_frame := .inl rfl
  txIdx_le := by decide
  tx_more := by simp [receiving]
  rxWait_open := fun _ => ⟨rfl, rfl⟩
  rxReply_judged := by simp [receiving]
  nacks_le := by decide
  result_fits := by simp [receiving, ready, State.reset]
  transfer_claimed := fun _ _ => rfl
  handle_claimed := rfl
  invoke_busy := by simp [receiving]

theorem inv_receiving_reply : (receiving .rxReply [0x01#8]).Inv where
  dec := push_inv 0x01#8 empty_inv
  txBuf_frame := .inl rfl
  txIdx_le := by decide
  tx_more := by simp [receiving]
  rxWait_open := by simp [receiving]
  rxReply_judged := fun _ => ⟨rfl, by decide, by decide⟩
  nacks_le := by decide
  result_fits := by simp [receiving, ready, State.reset]
  transfer_claimed := fun _ _ => rfl
  handle_claimed := rfl
  invoke_busy := by simp [receiving]

theorem sent_wellFormed : wellFormedFrame [0x01#8, 0xCC#8, 0x01#8, 0x20#8, 0x03#8] :=
  ⟨by decide, rfl, rfl, by decide +kernel⟩

theorem inv_sending (phase : Phase) (idx : Nat) (hp : phase = .txWrite ∨ phase = .txWait) (hi : idx < 5) :
    (sending phase idx).Inv where
  dec := empty_inv
  txBuf_frame := .inr sent_wellFormed
  txIdx_le := by simp [sending, State.txLen]; omega
  tx_more := fun _ => by simp [sending, State.txLen]; omega
  rxWait_open := fun h => by rcases hp with rfl | rfl <;> simp [sending] at h
  rxReply_judged := fun h => by rcases hp with rfl | rfl <;> simp [sending] at h
  nacks_le := Nat.zero_le 1
  result_fits := by simp [sending, ready, State.reset]
  transfer_claimed := fun _ _ => rfl
  handle_claimed := rfl
  invoke_busy := fun h => by rcases hp with rfl | rfl <;> simp [sending] at h

theorem witness_ResetEventGivesTheResetValues : { ready with inputs := [.reset] }.inputs = .reset :: [] := rfl

theorem witness_ChecksumLinearityAndResidue : ([0x79#8] : List Byte).length = ([0x06#8] : List Byte).length := rfl
theorem witness_ChecksumDetectsBursts : (0x80#8 : Byte) ≠ 0 ∧ (0xFF#8 : Byte) ≠ 0 ∧ 0 < 8 ∧ 7 < 8 := by decide

theorem witness_EncodedFramesAreWellFormedAndDistinct :
    encodeFrame 0x20#8 [0x03#8] = .ok [0x01#8, 0xCC#8, 0x01#8, 0x20#8, 0x03#8] ∧
    ∃ f, encodeFrame 0x00#8 (List.replicate 255 0x00#8) = .ok f :=
  ⟨by decide +kernel, _, encodeFrame_ok (Nat.le_of_eq List.length_replicate)⟩
theorem witness_DecodeInvertsEncode :
    ([] : List Byte).length ≤ 255 ∧ (List.replicate 255 (0 : Byte)).length ≤ 255 :=
  ⟨Nat.zero_le _, Nat.le_of_eq List.length_replicate⟩

theorem witness_DecRstEmptiesTheAccumulator : State.reset.phase ≠ .rxWait ∧ State.reset.phase ≠ .rxReply := by decide

/-- The boundaries of the clauses: a terminal accumulator; a wrong start byte and the start byte on an empty one; a second, a
third and a last byte. -/
theorem witness_DecPushFollowsItsPseudocode :
    ((sending .txWrite 0).phase ≠ .rxWait ∧ (sending .txWrite 0).phase ≠ .rxReply) ∧
    (pushed [0x0D#8]).st ≠ .incomplete ∧ (pushed []).st = .incomplete ∧ (pushed []).n = 0 ∧ 0x0D#8 ≠ 0x01#8 ∧
    ((pushed [0x01#8]).st = .incomplete ∧ (pushed [0x01#8]).n = 1) ∧
    ((pushed [0x01#8, 0x38#8]).st = .incomplete ∧ (pushed [0x01#8, 0x38#8]).n = 2) ∧
    ((pushed [0x01#8, 0x38#8, 0x00#8]).push 0x08#8).n = 4 + (0x00#8).toNat := by decide +kernel

theorem witness_DecQryReturnsVerdictAndFrame :
    (pushed [0x0D#8]).st ≠ .complete ∧ (pushed [0x01#8, 0x38#8, 0x00#8, 0x08#8]).st = .complete ∧
    (pushed [0x01#8, 0x38#8, 0x00#8, 0x08#8]).buf = 0x01#8 :: 0x38#8 :: 0x00#8 :: 0x08#8 :: [] ∧
    (Accumulator.mk [] 0 .complete true).st = .complete ∧ (Accumulator.mk [] 0 .complete true).n < 4 := by decide +kernel

/-- One input for each clause, at its boundary. -/
theorem witness_DecodeJudgesInOrder :
    ([0x00#8] : List Byte)[0]? = some 0x00#8 ∧ ([0x01#8, 0x38#8] : List Byte).length < 3 ∧
    (([0x01#8, 0x38#8, 0x00#8] : List Byte)[2]? = some 0x00#8 ∧
      ([0x01#8, 0x38#8, 0x00#8] : List Byte).length < 4 + (0x00#8).toNat) ∧
    (([0x01#8, 0x38#8, 0x00#8, 0x08#8] : List Byte)[2]? = some 0x00#8 ∧
      4 + (0x00#8).toNat ≤ ([0x01#8, 0x38#8, 0x00#8, 0x08#8] : List Byte).length) := by decide

theorem witness_TruncatedIsIncompleteNeverInvalid :
    ([0x03#8] : List Byte).length ≤ 255 ∧ 4 < 4 + ([0x03#8] : List Byte).length ∧ 0x00#8 ≠ 0x01#8 := by decide

/-- The start byte, the checksum, the kind and the first payload byte of V3.20 and V3.21. -/
theorem witness_OneFlippedBitOutsideLengthIsCaught :
    (frameBytes 0x20#8 [0x03#8])[0]? = some 0x01#8 ∧ (frameBytes 0x20#8 [0x03#8])[1]? = some 0xCC#8 ∧
    (frameBytes 0x20#8 [0x03#8])[3]? = some 0x20#8 ∧ (frameBytes 0x20#8 [0x03#8])[4]? = some 0x03#8 ∧ 7 < 8 := by
  decide +kernel

/-- V3.22b: the length raised from 1 to 3. -/
theorem witness_ChangedLengthIsNotAlwaysCaught : ([0x03#8] : List Byte).length < (0x03#8).toNat := by decide

theorem witness_SendFrameIsAccepted : ready.phase = .idle ∧ ready.claimed = true := ⟨rfl, rfl⟩
theorem witness_RecvFrameIsAccepted : ready.phase = .idle ∧ ready.claimed = true := ⟨rfl, rfl⟩
theorem witness_ForbiddenUsesAreRefused :
    (State.reset.phase = .idle ∧ State.reset.claimed = false) ∧ (sending .txWait 0).phase ≠ .idle ∧
    (receiving .rxWait []).phase = .rxWait ∧ (receiving .rxReply [0x01#8]).phase = .rxReply := by decide +kernel
theorem witness_FreeOperationsDisturbNoTransfer :
    Instr.crcRd ∈ [Instr.crcClr, .crcUpd 0, .crcRd, .checksum [], .encode 0 [], .decode []] := by decide
theorem witness_InvokeChecksBeforeItSends : ready.phase = .idle ∧ ready.claimed = true := ⟨rfl, rfl⟩
theorem witness_ClaimEndsWithPortOrDiscoveryError : State.reset.phase = .idle ∧
    (State.reset.phase = .idle ∧ State.reset.params.device = .dioCard) ∧
    ({ State.reset with params := { device := .automotive } }.phase = .idle ∧
      { State.reset with params := { device := .automotive } }.params.device = .automotive) :=
  ⟨rfl, ⟨rfl, rfl⟩, rfl, rfl⟩
/-- Five NACKs at the edge of the window; four NACKs and a fifth after it, then an ACK; an automotive port. -/
theorem witness_ProbeCountsNacksInTheWindow :
    (5 ≤ ((List.replicate 5 (ProbeReply.mk 2500 0x07#8)).filter fun r : ProbeReply => r.byte = 0x07#8 ∧ r.atMs ≤ 2500).length ∧
      ∀ r ∈ List.replicate 5 (ProbeReply.mk 2500 0x07#8), r.byte ≠ 0x0D#8) ∧
    (((List.replicate 4 (ProbeReply.mk 2500 0x07#8) ++ [ProbeReply.mk 2501 0x07#8, ProbeReply.mk 0 0x0D#8]).filter
        fun r : ProbeReply => r.byte = 0x07#8 ∧ r.atMs ≤ 2500).length < 5 ∧
      ∃ r ∈ List.replicate 4 (ProbeReply.mk 2500 0x07#8) ++ [⟨2501, 0x07#8⟩, ⟨0, 0x0D#8⟩], r.byte = 0x0D#8) ∧
    (Params.nacksNeeded {}, Params.timeThresholdMs {}) = (5, 2500) ∧
    Params.device { device := .automotive } = .automotive := by decide
theorem witness_ReleaseAbandonsTheTransfer_sending : ∃ s : State, s.inputs = [] ∧ s.Inv ∧ s.phase = .txWrite :=
  ⟨sending .txWrite 4, rfl, inv_sending _ _ (.inl rfl) (by decide), rfl⟩
theorem witness_ReleaseAbandonsTheTransfer_receiving : ∃ s : State, s.inputs = [] ∧ s.Inv ∧ s.phase = .rxReply :=
  ⟨receiving .rxReply [0x01#8], rfl, inv_receiving_reply, rfl⟩

/-- A closed port, and a step of each kind that could open it but is no claim in `IDLE`: the sequencer's, and reset. -/
theorem witness_ReleaseAbandonsTheTransfer_closed :
    (next? (step { sending .txWrite 0 with portOpen := false })).map (·.portOpen) = some false ∧
    (next? (step { sending .txWrite 0 with portOpen := false, inputs := [.reset] })).map (·.portOpen) = some false := by
  decide

theorem witness_TxWriteWritesOneByte : (sending .txWrite 4).inputs = [] ∧ (sending .txWrite 4).phase = .txWrite ∧
    (sending .txWrite 4).memRead .txBuf (sending .txWrite 4).txIdx = some 0x03#8 := by decide
/-- The last byte of a `SEND_FRAME` and of an invocation. -/
theorem witness_TxWaitGoesOnWithAck : ∀ invoke : Option Byte, ∃ s : State, s.inputs = [] ∧ s.phase = .txWait ∧
    s.portOpen = true ∧ s.invoke = invoke ∧ s.inbound = 0x0D#8 :: [] ∧ s.txIdx + 1 = s.txLen :=
  fun invoke => ⟨{ sending .txWait 4 with inbound := [0x0D#8], invoke := invoke }, rfl, rfl, rfl, rfl, rfl, rfl⟩
/-- A closed port, an empty channel, and a reply that is not ACK. -/
theorem witness_TxWaitFailsWithoutAck :
    { sending .txWait 0 with portOpen := false, inbound := [0x0D#8] }.portOpen = false ∧
    ((sending .txWait 0).portOpen = true ∧ (sending .txWait 0).inbound = []) ∧
    { sending .txWait 0 with inbound := [0x07#8] }.inbound.head? = some 0x07#8 := by decide
theorem witness_RxWaitReadsOneByte : (receiving .rxWait []).inputs = [] ∧ (receiving .rxWait []).phase = .rxWait ∧
    ((receiving .rxWait []).portOpen = true ∧ (receiving .rxWait []).inbound = []) ∧
    { receiving .rxWait [] with portOpen := false }.portOpen = false ∧
    { receiving .rxWait [] with inbound := [0x01#8] }.inbound = 0x01#8 :: [] := ⟨rfl, rfl, ⟨rfl, rfl⟩, rfl, rfl⟩
theorem witness_RxReplyAcknowledgesAndGoesOn : (receiving .rxReply [0x01#8]).inputs = [] ∧
    (receiving .rxReply [0x01#8]).phase = .rxReply ∧ (receiving .rxReply [0x01#8]).portOpen = true ∧
    (receiving .rxReply [0x01#8]).dec.st = .incomplete ∧ (receiving .rxReply [0x01#8]).dec.exp = true := by decide
theorem witness_WrongStartByteIsNackedThenFails : (receiving .rxReply [0x0D#8]).inputs = [] ∧
    (receiving .rxReply [0x0D#8]).phase = .rxReply ∧ (receiving .rxReply [0x0D#8]).portOpen = true ∧
    (receiving .rxReply [0x0D#8]).dec.st = .sofError ∧ (receiving .rxReply [0x0D#8]).dec.exp = false ∧
    (receiving .rxReply [0x0D#8]).params.desync = .never := by decide
theorem witness_ChecksumFailureEndsTheReception : ∃ s : State, s.inputs = [] ∧ s.phase = .rxReply ∧ s.portOpen = true ∧
    s.dec.st = .crcError ∧ s.dec.exp = true ∧ s.params.desync = .never :=
  ⟨receiving .rxReply [0x01#8, 0xC4#8, 0x01#8, 0x20#8, 0x01#8], rfl, rfl, rfl, by decide +kernel, by decide +kernel, rfl⟩
/-- The same under `any_after_nack`, where no NACK was written. -/
theorem witness_ChecksumFailureEndsTheReception_anyAfterNack : ∃ s : State, s.inputs = [] ∧ s.phase = .rxReply ∧
    s.portOpen = true ∧ s.dec.st = .crcError ∧ s.dec.exp = true ∧ s.params.desync = .anyAfterNack ∧
    s.params.lastByte = .positionOnly ∧ s.rxNacks = 0 :=
  ⟨{ receiving .rxReply [0x01#8, 0xC4#8, 0x01#8, 0x20#8, 0x01#8] with params := { desync := .anyAfterNack } }, rfl, rfl,
    rfl, by decide +kernel, by decide +kernel, rfl, rfl, rfl⟩
theorem witness_DesyncStatusAfterNack : ∃ s : State, s.inputs = [] ∧ s.phase = .rxReply ∧ s.portOpen = true ∧
    s.params.desync = .anyAfterNack ∧ s.dec.st = .sofError ∧ s.dec.exp = false :=
  ⟨{ receiving .rxReply [0x0D#8] with params := { desync := .anyAfterNack } }, rfl, rfl, rfl, rfl, by decide, by decide⟩
theorem witness_DesyncStatusAfterNack_crcGated : ∃ s : State, s.inputs = [] ∧ s.phase = .rxReply ∧ s.portOpen = true ∧
    s.params.desync = .anyAfterNack ∧ s.dec.st = .crcError ∧ s.dec.exp = true ∧ s.params.lastByte = .crcGated :=
  ⟨{ receiving .rxReply [0x01#8, 0xC4#8, 0x01#8, 0x20#8, 0x01#8] with
      params := { desync := .anyAfterNack, lastByte := .crcGated } }, rfl, rfl, rfl, rfl, by decide +kernel,
    by decide +kernel, rfl⟩
theorem witness_CompleteFrameIsLatched : ∃ (s : State) (f : Frame), s.inputs = [] ∧ s.phase = .rxReply ∧
    s.portOpen = true ∧ s.dec.st = .complete ∧ s.dec.exp = true ∧ frameIn s.dec.buf = some f ∧ s.invoke = none :=
  ⟨receiving .rxReply [0x01#8, 0x38#8, 0x00#8, 0x08#8], ⟨0x08#8, []⟩, rfl, rfl, rfl, by decide +kernel,
    by decide +kernel, by decide +kernel, rfl⟩
theorem witness_InvokeChecksTheResponse : ∃ (s : State) (f : Frame), s.inputs = [] ∧ s.phase = .rxReply ∧
    s.portOpen = true ∧ s.dec.st = .complete ∧ s.dec.exp = true ∧ frameIn s.dec.buf = some f ∧ s.invoke = some 0x20#8 :=
  ⟨{ receiving .rxReply [0x01#8, 0xC2#8, 0x01#8, 0x20#8, 0x01#8] with invoke := some 0x20#8 }, ⟨0x20#8, [0x01#8]⟩, rfl, rfl,
    rfl, by decide +kernel, by decide +kernel, by decide +kernel, rfl⟩
theorem witness_ClosedWriteBeatsTheVerdict : ∃ s : State, s.inputs = [] ∧ s.phase = .rxReply ∧ s.portOpen = false ∧
    s.dec.st = .complete :=
  ⟨{ receiving .rxReply [0x01#8, 0x38#8, 0x00#8, 0x08#8] with portOpen := false }, rfl, rfl, rfl, by decide +kernel⟩
theorem witness_ClosedWriteBeatsTheVerdict_nack : ∃ s : State, s.inputs = [] ∧ s.phase = .rxReply ∧
    s.portOpen = false ∧ s.dec.exp = false :=
  ⟨{ receiving .rxReply [0x0D#8] with portOpen := false }, rfl, rfl, rfl, by decide +kernel⟩

theorem witness_StepExecutesThePresentedInstruction :
    { ready with inputs := [.present (.op ⟨0x0#4, []⟩)] }.inputs = .present (.op ⟨0x0#4, []⟩) :: [] ∧
    decode (.op ⟨0x0#4, []⟩) = .ok .crcClr := ⟨rfl, rfl⟩
theorem witness_DecodeEncodeIsTheInstruction : (Instr.frame 0 0x21#8 (List.replicate 255 0)).wf = true := by decide +kernel
theorem witness_OnlyEncodingsDecode :
    decode (.wire [0x01#8, 0x38#8, 0x00#8, 0x08#8]) = .ok (.frameGetLowPowerEnable 0x38#8 []) ∧
    decode (.op ⟨0xD#4, []⟩) = .ok .release ∧ decode (.op ⟨0xF#4, [.byte 0]⟩) = .ok .reservedF := ⟨rfl, rfl, rfl⟩
/-- A request that encodes nothing: `RELEASE` with an operand. -/
theorem witness_OnlyEncodingsDecode_refused :
    (∀ i : Instr, encode i ≠ .op ⟨0xD#4, [.byte 0]⟩) ∧ (0xD#4 : Nibble) ≠ 0xE#4 ∧ (0xD#4 : Nibble) ≠ 0xF#4 :=
  ⟨fun i => by cases i <;> simp [Sys2Proof.encode], by decide, by decide⟩
theorem witness_StepKeepsTheInvariant : ∃ s t : State, s.Inv ∧ step s = .next t ∧ t ≠ s :=
  ⟨receiving .rxReply [0x01#8], _, inv_receiving_reply, rfl, by decide⟩
theorem witness_InvariantStatesNeverFault : (receiving .rxWait []).Inv := inv_receiving_start
theorem witness_OnePrimitivePerPhase : ∃ s : State, s.Inv ∧ s.inputs = [] ∧ s.phase ≠ .idle :=
  ⟨sending .txWait 0, inv_sending _ _ (.inr rfl) (by decide), rfl, by decide⟩
/-- A step that writes `CRC.R`, by the operation and by reset. -/
theorem witness_OnlyTheChecksumUnitWritesCrcR :
    (next? (step { ready with crc := 0xCC#8, inputs := [.present (.op ⟨0x0#4, []⟩)] })).map (·.crc) = some 0x00#8 ∧
    (next? (step { ready with crc := 0xCC#8, inputs := [.reset] })).map (·.crc) = some 0x00#8 := by decide
/-- A step that takes the oldest byte, and one that writes a byte. -/
theorem witness_StaleBytesStay :
    (next? (exec .crcRd { ready with inbound := [0x55#8] })).map (·.inbound) = some [0x55#8] ∧
    (next? (step { receiving .rxWait [] with inbound := [0x01#8, 0x55#8] })).map (·.inbound) = some [0x55#8] ∧
    (next? (step (sending .txWrite 0))).map (·.outbound) = some [0x01#8] := by decide
/-- A reception that ends in failure, and one that ends ok. -/
theorem witness_ResultIsValidIffReceptionEndedOk :
    (next? (step (receiving .rxWait []))).map (fun t => (t.phase, t.resultValid)) = some (.idle, false) ∧
    (next? (step (receiving .rxReply [0x01#8, 0x38#8, 0x00#8, 0x08#8]))).map (fun t => (t.phase, t.resultValid)) =
      some (.idle, true) := by decide +kernel
theorem witness_RoleOnlyLabelsTheTrace : ∃ t, step (sending .txWrite 0) = .next t := ⟨_, rfl⟩
theorem witness_EveryTransferEnds_518 : (∃ s : State, s.Inv ∧ s.inputs = [] ∧ s.invoke = none ∧ s.phase = .txWrite) ∧
    ∃ s : State, s.Inv ∧ s.inputs = [] ∧ s.phase = .rxWait :=
  ⟨⟨sending .txWrite 0, inv_sending _ _ (.inl rfl) (by decide), rfl, rfl, rfl⟩,
    receiving .rxWait [], inv_receiving_start, rfl, rfl⟩
theorem witness_EveryTransferEnds : ∃ s : State, s.Inv ∧ s.inputs = [] ∧ s.phase ≠ .idle :=
  ⟨sending .txWrite 0, inv_sending _ _ (.inl rfl) (by decide), rfl, by decide⟩
theorem witness_SendFrameRunsItsLoop : ([0x03#8] : List Byte).length ≤ 255 ∧ ready.phase = .idle ∧ ready.claimed = true ∧
    ready.portOpen = true ∧ ready.inputs = [] ∧ ready.invoke = none := by decide
/-- The peer's bytes may be none, a wrong start byte, a frame, or a frame with a wrong checksum. -/
theorem witness_RecvFrameAgreesWithDecode : ready.phase = .idle ∧ ready.claimed = true ∧ ready.portOpen = true ∧
    ready.inputs = [] ∧ ready.invoke = none ∧ ready.params.desync = .never := by decide
theorem witness_SenderAndReceiverFit : ([] : List Byte).length ≤ 255 ∧ (List.replicate 255 (0 : Byte)).length ≤ 255 :=
  ⟨Nat.zero_le _, Nat.le_of_eq List.length_replicate⟩
theorem witness_InvokeRunsItsStages : ready.phase = .idle ∧ ready.claimed = true ∧ ready.portOpen = true ∧
    ready.inputs = [] ∧ ready.params.desync = .never := by decide

end Sys2Proof.Tests
end

section
/-! The state after reset, the wire symbols, the numbers of the status elements, and what one step can do to the link, to
`CRC.R` and to `RESULT` (`10_state.md`). -/

namespace Sys2Proof.Machine

open Sys2Proof

/-! ### The state after reset -/

/-- Neither buffer holds a value at reset (R47). -/
theorem reset_memRead (space : Space) (addr : Nat) : State.reset.memRead space addr = none := by
  cases space <;> exact read_none [] (Nat.zero_le addr)

/-- Settles O1: each element by computation, the buffers by `reset_memRead`. -/
theorem resetStateHoldsTheTableOfR46 : Obligations.ResetStateHoldsTheTableOfR46 :=
  ⟨rfl, rfl, rfl, rfl, rfl, rfl, rfl, rfl, rfl, by decide, rfl, rfl, rfl, reset_memRead, rfl⟩

/-- Settles O48: the accumulator at reset is the empty one (`empty_inv`), and the phase is `IDLE`. -/
theorem resetMeetsTheInvariant : Obligations.ResetMeetsTheInvariant where
  dec := empty_inv
  txBuf_frame := .inl rfl
  txIdx_le := Nat.le_refl 0
  tx_more := by rintro (h | h) <;> cases h
  rxWait_open := by rintro ⟨⟩
  rxReply_judged := by rintro ⟨⟩
  nacks_le := Nat.zero_le 1
  result_fits := by rintro f ⟨⟩
  transfer_claimed := fun h => absurd rfl h
  handle_claimed := rfl
  invoke_busy := fun _ => rfl

/-! ### Wire symbols and status codes -/

/-- Settles O31: `arrive` appends the bytes of the symbol, which `wireFrame` writes in the order of R90. -/
theorem wireSymbolsArriveInOrder : Obligations.WireSymbolsArriveInOrder :=
  fun _ _ _ _ => ⟨rfl, rfl, rfl, rfl, rfl⟩

/-- Settles O43, status by status. -/
theorem statusCodesAreTheTable : Obligations.StatusCodesAreTheTable := by
  refine ⟨fun st => ?_, fun st => ⟨rfl, ?_⟩, rfl, rfl, rfl⟩ <;> cases st <;> decide

/-! ### What an operation or a symbol can do -/

/-- The instructions that write `CRC.R` (R22). -/
def WritesCrc (i : Instr) : Prop := i = .crcClr ∨ (∃ b, i = .crcUpd b) ∨ ∃ bs, i = .checksum bs

/-- What `exec` can answer: a refusal; the fault of `DEC_QRY` over a `COMPLETE` verdict without a frame; or a next state in
which only the Checksum Unit has written `CRC.R` and the waiting bytes are still in front. -/
inductive ExecAnswer (i : Instr) (s : State) : Host.Outcome State Fault Refusal → Prop where
  | refused (r : Refusal) : ExecAnswer i s (.refused r)
  | fault (complete : s.dec.st = .complete) (noFrame : frameIn s.dec.buf = none) :
      ExecAnswer i s (.fault (.noValue .decBuf))
  | next (t : State) (crc : t.crc = s.crc ∨ WritesCrc i) (inbound : s.inbound <+: t.inbound) :
      ExecAnswer i s (.next t)

/-- A state with the same `CRC.R` and waiting bytes is an answer of every instruction. -/
theorem ExecAnswer.same {i : Instr} {s t : State} (crc : t.crc = s.crc) (inbound : t.inbound = s.inbound) :
    ExecAnswer i s (.next t) :=
  .next t (.inl crc) (inbound ▸ List.prefix_rfl)

/-- Bytes that arrive are an answer of every symbol. -/
theorem ExecAnswer.arrive (i : Instr) (bs : List Byte) (s : State) : ExecAnswer i s (.next (arrive bs s)) :=
  .next _ (.inl rfl) (List.prefix_append s.inbound bs)

theorem exec_answer (i : Instr) (s : State) : ExecAnswer i s (exec i s) := by
  cases i with
  | crcClr => exact .next _ (.inr (.inl rfl)) List.prefix_rfl
  | crcUpd b => exact .next _ (.inr (.inr (.inl ⟨b, rfl⟩))) List.prefix_rfl
  | checksum bs => exact .next _ (.inr (.inr (.inr ⟨bs, rfl⟩))) List.prefix_rfl
  | crcRd | encode _ _ | decode _ | release => exact .same rfl rfl
  | frame _ _ _ | ack | nack | frameGetLowPowerEnable _ _ | frameGetDi _ _ => exact .arrive _ _ s
  | reservedE | reservedF => exact .refused _
  | decRst =>
    simp only [exec, execDecRst]
    split
    · exact .refused _
    · exact .same rfl rfl
  | decPush b =>
    simp only [exec, execDecPush]
    split
    · exact .refused _
    · exact .same rfl rfl
  | decQry =>
    simp only [exec, execDecQry]
    split
    next hc =>
      split
      next hf => exact .fault hc hf
      next => exact .same rfl rfl
    next => exact .same rfl rfl
  | sendFrame kind payload =>
    simp only [exec, execSendFrame]
    split
    · exact .refused _
    · split <;> exact .same rfl rfl
  | recvFrame =>
    simp only [exec, execRecvFrame]
    split
    · exact .refused _
    · exact .same rfl rfl
  | invoke kind args =>
    simp only [exec, execInvoke]
    split
    · exact .refused _
    · rcases invokeStart_cases kind args s with ⟨_, _, e, -⟩ | ⟨_, -, -, -, -, e⟩ <;> rw [e] <;> exact .same rfl rfl
  | claim port =>
    simp only [exec, execClaim]
    split
    · exact .refused _
    · exact .same rfl rfl

theorem exec_inbound {i : Instr} {s t : State} (h : exec i s = .next t) : s.inbound <+: t.inbound := by
  have ha := exec_answer i s
  rw [h] at ha
  cases ha with
  | next _ _ inbound => exact inbound

theorem exec_crc {i : Instr} {s t : State} (h : exec i s = .next t) : t.crc = s.crc ∨ WritesCrc i := by
  have ha := exec_answer i s
  rw [h] at ha
  cases ha with
  | next _ crc _ => exact crc

theorem exec_fault {i : Instr} {s : State} {r : Fault} (h : exec i s = .fault r) :
    s.dec.st = .complete ∧ frameIn s.dec.buf = none := by
  have ha := exec_answer i s
  rw [h] at ha
  cases ha with
  | fault complete noFrame => exact ⟨complete, noFrame⟩

/-! ### What a step of the sequencer does to the link -/

/-- The elements that a transfer writes by its link primitives alone, and those that it does not write at all. -/
def State.linkView (s : State) : Params × Byte × List Byte × List Byte × List LinkEvent :=
  (s.params, s.crc, s.inbound, s.outbound, s.trace)

theorem linkView_eq_iff {s t : State} : t.linkView = s.linkView ↔
    t.params = s.params ∧ t.crc = s.crc ∧ t.inbound = s.inbound ∧ t.outbound = s.outbound ∧ t.trace = s.trace := by
  simp [State.linkView]

@[simp] theorem acked_linkView (s : State) : (acked s).linkView = s.linkView := by
  rcases acked_cases s with ⟨-, e⟩ | ⟨-, -, e⟩ | ⟨-, -, -, e⟩ <;> rw [e] <;> rfl

@[simp] theorem verdictFailure_linkView (own : Status) (s : State) : (verdictFailure own s).linkView = s.linkView := by
  obtain ⟨_, _, e, -⟩ := verdictFailure_cases own s
  rw [e]; rfl

@[simp] theorem recvDone_linkView (f : Frame) (s : State) : (recvDone f s).linkView = s.linkView := by
  unfold recvDone
  split <;> rfl

theorem afterReply_linkView {s t : State} (h : afterReply s = .next t) : t.linkView = s.linkView := by
  rcases afterReply_next h with ⟨-, rfl⟩ | ⟨-, rfl⟩ | ⟨-, rfl⟩ | ⟨f, -, -, rfl⟩
  · rfl
  · exact verdictFailure_linkView _ _
  · exact verdictFailure_linkView _ _
  · exact recvDone_linkView _ _

/-- R184: a step of the sequencer does to the link what the one primitive of its phase does (R32), and nothing more. -/
theorem sequence_linkView {s t : State} (h : sequence s = .next t) :
    (s.phase = .idle ∧ t = s) ∨
    ((s.phase = .txWait ∨ s.phase = .rxWait) ∧ t.linkView = (afterRead s).linkView) ∨
    ((s.phase = .txWrite ∨ s.phase = .rxReply) ∧
      ((∃ b, t.linkView = (afterWrite b s).linkView) ∨ t.linkView = (afterClosedWrite s).linkView)) := by
  cases hp : s.phase with
  | idle =>
    rw [sequence_idle hp] at h
    exact .inl ⟨rfl, (Host.Outcome.next.inj h).symm⟩
  | txWrite =>
    rw [sequence_txWrite hp] at h
    refine .inr (.inr ⟨.inl rfl, ?_⟩)
    obtain ⟨b, -, ⟨-, rfl⟩ | ⟨-, rfl⟩⟩ := stepTxWrite_next h
    · exact .inl ⟨b, rfl⟩
    · exact .inr rfl
  | txWait =>
    rw [sequence_txWait hp] at h
    refine .inr (.inl ⟨.inl rfl, ?_⟩)
    rcases stepTxWait_cases s with ⟨_, -, -, e⟩ | ⟨_, -, e, -⟩ <;> rw [e] at h <;>
      obtain rfl := Host.Outcome.next.inj h
    · exact acked_linkView _
    · rfl
  | rxWait =>
    rw [sequence_rxWait hp] at h
    refine .inr (.inl ⟨.inr rfl, ?_⟩)
    rcases stepRxWait_cases s with ⟨_, _, -, -, e⟩ | ⟨_, -, e⟩ <;> rw [e] at h <;>
      obtain rfl := Host.Outcome.next.inj h <;> rfl
  | rxReply =>
    rw [sequence_rxReply hp] at h
    refine .inr (.inr ⟨.inr rfl, ?_⟩)
    rcases stepRxReply_next h with ⟨-, hr⟩ | ⟨-, rfl⟩
    · exact .inl ⟨ackByte s.params s.dec, (afterReply_linkView hr).trans rfl⟩
    · exact .inr rfl

theorem sequence_params_crc {s t : State} (h : sequence s = .next t) : t.params = s.params ∧ t.crc = s.crc := by
  rcases sequence_linkView h with ⟨-, rfl⟩ | ⟨-, hv⟩ | ⟨-, ⟨_, hv⟩ | hv⟩
  · exact ⟨rfl, rfl⟩
  all_goals
    obtain ⟨hparams, hcrc, -⟩ := linkView_eq_iff.mp hv
    exact ⟨hparams, hcrc⟩

/-- R310: the sequencer takes at most the oldest waiting byte. -/
theorem sequence_inbound {s t : State} (h : sequence s = .next t) :
    t.inbound = s.inbound ∨ ∃ b, s.inbound = b :: t.inbound := by
  rcases sequence_linkView h with ⟨-, rfl⟩ | ⟨-, hv⟩ | ⟨-, ⟨_, hv⟩ | hv⟩
  · exact .inl rfl
  · obtain ⟨-, -, hin, -⟩ := linkView_eq_iff.mp hv
    rw [hin, afterRead_inbound]
    cases s.portOpen
    · exact .inl rfl
    · cases s.inbound with
      | nil => exact .inl rfl
      | cons b rest => exact .inr ⟨b, rfl⟩
  all_goals
    obtain ⟨-, -, hin, -⟩ := linkView_eq_iff.mp hv
    exact .inl hin

/-- R310: the sequencer writes at most one byte, behind those it has written. -/
theorem sequence_outbound {s t : State} (h : sequence s = .next t) :
    t.outbound = s.outbound ∨ ∃ b, t.outbound = s.outbound ++ [b] := by
  rcases sequence_linkView h with ⟨-, rfl⟩ | ⟨-, hv⟩ | ⟨-, ⟨b, hv⟩ | hv⟩
  · exact .inl rfl
  all_goals obtain ⟨-, -, -, hout, -⟩ := linkView_eq_iff.mp hv
  · exact .inl hout
  · exact .inr ⟨b, hout⟩
  · exact .inl hout

/-- R112 and R184: outside `IDLE` a step appends exactly one event, of the direction of its phase. -/
theorem sequence_trace {s t : State} (h : sequence s = .next t) (hp : s.phase ≠ .idle) :
    ∃ m, t.trace = s.trace ++ [LinkEvent.mk
      (if s.phase = .txWrite ∨ s.phase = .rxReply then writeDir s.params.role else readDir s.params.role) m] := by
  rcases sequence_linkView h with ⟨hi, -⟩ | ⟨hr, hv⟩ | ⟨hw, ⟨_, hv⟩ | hv⟩
  · exact absurd hi hp
  all_goals obtain ⟨-, -, -, -, htr⟩ := linkView_eq_iff.mp hv
  · rw [if_neg (by rcases hr with hr | hr <;> simp [hr])]
    exact ⟨_, htr⟩
  · rw [if_pos hw]
    exact ⟨_, htr⟩
  · rw [if_pos hw]
    exact ⟨_, htr⟩

/-! ### No step from an invariant state faults -/

/-- R158 (d) and (e): under the invariant a `COMPLETE` verdict stands over a whole frame. -/
theorem frameIn_of_complete {a : Accumulator} (h : a.Inv) (hc : a.st = .complete) : ∃ f, frameIn a.buf = some f := by
  obtain ⟨-, hcomplete, -⟩ := decodeFrame_of_inv h
  obtain ⟨f, hf, -⟩ := hcomplete hc
  exact ⟨f, hf⟩

/-- The accumulator is all that `afterReply` needs to be able to go on. -/
theorem afterReply_progress {s : State} (h : s.dec.Inv) : ∃ t, afterReply s = .next t := by
  unfold afterReply
  cases hs : s.dec.st with
  | incomplete | sofError | crcError => exact ⟨_, rfl⟩
  | complete =>
    obtain ⟨f, hf⟩ := frameIn_of_complete h hs
    simp only [hf]
    exact ⟨_, rfl⟩

/-- From a state that meets the invariant the sequencer always completes its step. -/
theorem sequence_progress {s : State} (h : s.Inv) : ∃ t, sequence s = .next t := by
  cases hp : s.phase with
  | idle => exact ⟨s, sequence_idle hp⟩
  | txWrite =>
    rw [sequence_txWrite hp]
    have hb : s.memRead .txBuf s.txIdx = some (s.txBuf[s.txIdx]'(h.tx_more (.inl hp))) :=
      List.getElem?_eq_getElem _
    cases ho : s.portOpen
    · exact ⟨_, stepTxWrite_closed hb ho⟩
    · exact ⟨_, stepTxWrite_open hb ho⟩
  | txWait =>
    rw [sequence_txWait hp]
    rcases stepTxWait_cases s with ⟨_, -, -, e⟩ | ⟨_, -, e, -⟩ <;> exact ⟨_, e⟩
  | rxWait =>
    rw [sequence_rxWait hp]
    rcases stepRxWait_cases s with ⟨_, _, -, -, e⟩ | ⟨_, -, e⟩ <;> exact ⟨_, e⟩
  | rxReply =>
    rw [sequence_rxReply hp]
    cases ho : s.portOpen
    · exact ⟨_, stepRxReply_closed ho⟩
    · rw [stepRxReply_open ho]
      exact afterReply_progress h.dec

/-- The invariant does not speak of what is queued. -/
theorem State.Inv.with_inputs {s : State} (h : s.Inv) (inputs : List Input) : State.Inv { s with inputs := inputs } :=
  ⟨h.dec, h.txBuf_frame, h.txIdx_le, h.tx_more, h.rxWait_open, h.rxReply_judged, h.nacks_le, h.result_fits,
    h.transfer_claimed, h.handle_claimed, h.invoke_busy⟩

theorem sequence_no_fault {s : State} (r : Fault) (h : s.Inv) : sequence s ≠ .fault r := by
  obtain ⟨t, ht⟩ := sequence_progress h
  simp [ht]

theorem exec_no_fault {s : State} (i : Instr) (r : Fault) (h : s.Inv) : exec i s ≠ .fault r := by
  intro hf
  obtain ⟨hc, hnone⟩ := exec_fault hf
  obtain ⟨f, hsome⟩ := frameIn_of_complete h.dec hc
  simp [hnone] at hsome

theorem present_no_fault {s : State} (p : Presented) (r : Fault) (h : s.Inv) : present p s ≠ .fault r := by
  unfold present
  split
  · exact exec_no_fault _ r h
  · cases p <;> simp [undecoded]

theorem takeInput_no_fault {s : State} (i : Input) (r : Fault) (h : s.Inv) : takeInput i s ≠ .fault r := by
  cases i with
  | present p => exact present_no_fault p r h
  | run => exact sequence_no_fault r h
  | link _ _ | closePort | reset => simp [takeInput]

/-- Settles O50: the sequencer always completes its step (`sequence_progress`), and no input faults. -/
theorem invariantStatesNeverFault : Obligations.InvariantStatesNeverFault := by
  intro s r h
  cases hi : s.inputs with
  | nil => rw [step_nil hi]; exact sequence_no_fault r h
  | cons i rest => rw [step_cons hi]; exact takeInput_no_fault i r (h.with_inputs rest)

/-- Settles O51: `sequence_progress` gives the next state, `sequence_trace` its one event. -/
theorem onePrimitivePerPhase : Obligations.OnePrimitivePerPhase := by
  intro s h hi hp
  obtain ⟨t, ht⟩ := sequence_progress h
  obtain ⟨m, hm⟩ := sequence_trace ht hp
  exact ⟨t, m, (step_nil hi).trans ht, hm⟩

/-! ### What writes CRC.R, and what moves bytes -/

/-- An input leaves the parameters, and `CRC.R` too unless it is reset or presents an instruction of the Checksum Unit. -/
theorem takeInput_params_crc {i : Input} {s t : State} (h : takeInput i s = .next t) :
    t.params = s.params ∧
      (t.crc = s.crc ∨ i = .reset ∨ ∃ p j, i = .present p ∧ decode p = .ok j ∧ WritesCrc j) := by
  cases i with
  | present p =>
    simp only [takeInput, present] at h
    split at h
    next j hj =>
      obtain ⟨hparams, -⟩ := exec_untouched h
      exact ⟨hparams, (exec_crc h).imp_right fun hw => .inr ⟨p, j, rfl, hj, hw⟩⟩
    next =>
      cases p with
      | op r => cases h
      | wire bytes => cases h; exact ⟨rfl, .inl rfl⟩
  | run =>
    obtain ⟨hparams, hcrc⟩ := sequence_params_crc h
    exact ⟨hparams, .inl hcrc⟩
  | link _ _ | closePort => cases h; exact ⟨rfl, .inl rfl⟩
  | reset => cases h; exact ⟨rfl, .inr (.inl rfl)⟩

/-- Settles O52: with nothing queued the sequencer writes neither, else `takeInput_params_crc` says which input did. -/
theorem onlyTheChecksumUnitWritesCrcR : Obligations.OnlyTheChecksumUnitWritesCrcR := by
  intro s t h
  cases hi : s.inputs with
  | nil =>
    rw [step_nil hi] at h
    obtain ⟨hparams, hcrc⟩ := sequence_params_crc h
    exact ⟨hparams, fun hne => absurd hcrc hne⟩
  | cons i rest =>
    rw [step_cons hi] at h
    obtain ⟨hparams, hcrc | rfl | ⟨p, j, rfl, hj, hw⟩⟩ := takeInput_params_crc h
    · exact ⟨hparams, fun hne => absurd hcrc hne⟩
    · exact ⟨hparams, fun _ => .inl ⟨rest, rfl⟩⟩
    · refine ⟨hparams, fun _ => .inr ⟨p, rest, rfl, ?_⟩⟩
      rw [hj]
      rcases hw with rfl | ⟨b, rfl⟩ | ⟨bs, rfl⟩
      · exact .inl rfl
      · exact .inr (.inl ⟨b, rfl⟩)
      · exact .inr (.inr ⟨bs, rfl⟩)

/-- Settles O53, by what an instruction (`exec_inbound`, `exec_untouched`) and what a step of the sequencer
(`sequence_inbound`, `sequence_outbound`) does to the two channels. -/
theorem staleBytesStay : Obligations.StaleBytesStay := by
  refine ⟨fun i s t h => ?_, fun s t hi h => ?_⟩
  · obtain ⟨-, -, -, hout⟩ := exec_untouched h
    obtain ⟨bs, hin⟩ := exec_inbound h
    exact ⟨⟨bs, hin.symm⟩, hout⟩
  · rw [step_nil hi] at h
    exact ⟨sequence_inbound h, sequence_outbound h⟩

/-! ### RESULT at the end of a reception -/

/-- R262: a reception that fails leaves no result and a failure status. -/
theorem takeFailure_result_iff {s : State} {st : Status} (d : Diag) (hp : s.phase.receiving = true)
    (hst : st ≠ .success) :
    (takeFailure st d s).resultValid = true ↔ (takeFailure st d s).status = .success := by
  simp [State.resultValid, hp, hst]

theorem verdictFailure_result_iff {s : State} {own : Status} (hp : s.phase.receiving = true) (hown : own ≠ .success) :
    (verdictFailure own s).resultValid = true ↔ (verdictFailure own s).status = .success := by
  obtain ⟨st, n, e, hst⟩ := verdictFailure_cases own s
  have hfail : st ≠ .success := by
    rcases hst with rfl | rfl | rfl | rfl
    · exact hown
    all_goals decide
  rw [e]
  exact takeFailure_result_iff _ hp hfail

/-- R195, R197, R198: what follows the last acknowledgment of a caller's reception. -/
theorem afterReply_result_iff {s t : State} (h : afterReply s = .next t) (hp : s.phase.receiving = true)
    (hi : s.invoke = none) (ht : t.phase = .idle) : t.resultValid = true ↔ t.status = .success := by
  rcases afterReply_next h with ⟨-, rfl⟩ | ⟨-, rfl⟩ | ⟨-, rfl⟩ | ⟨f, -, -, rfl⟩
  · cases ht
  · exact verdictFailure_result_iff hp (by decide)
  · exact verdictFailure_result_iff hp (by decide)
  · rw [recvDone_none f hi]
    simp [State.resultValid]

/-- Settles O54: the reception ends in `RX_WAIT` by a failure alone, in `RX_REPLY` by a failure or with a latched frame. -/
theorem resultIsValidIffReceptionEndedOk : Obligations.ResultIsValidIffReceptionEndedOk := by
  intro s t hi hp hinv h ht
  have hrec : s.phase.receiving = true := receiving_iff.mpr hp
  rw [step_nil hi] at h
  rcases hp with hp | hp
  · rw [sequence_rxWait hp] at h
    rcases stepRxWait_cases s with ⟨_, _, -, -, e⟩ | ⟨d, -, e⟩ <;> rw [e] at h <;>
      obtain rfl := Host.Outcome.next.inj h
    · cases ht
    · exact takeFailure_result_iff d hrec (by decide)
  · rw [sequence_rxReply hp] at h
    rcases stepRxReply_next h with ⟨-, hr⟩ | ⟨-, rfl⟩
    · exact afterReply_result_iff hr hrec hinv ht
    · exact takeFailure_result_iff _ hrec (by decide)

end Sys2Proof.Machine
end

section
/-! `RECV_FRAME` over an open port agrees with `DECODE` of the peer's bytes (R190 to R204): the reception is followed byte by
byte, and at its end the accumulator says of the bytes read what `DECODE` says of all of them. -/

namespace Sys2Proof.Machine

open Sys2Proof

/-! ### One byte pushed on an open accumulator -/

/-- A byte is stored and expected, but for a wrong start byte, which comes first (R156, R193). -/
theorem push_open {a : Accumulator} (b : Byte) (h : a.st = .incomplete) :
    ((a.push b).st = .sofError ∧ (a.push b).exp = false ∧ a.buf = [] ∧ b ≠ Config.sof) ∨
    ((a.push b).st ≠ .sofError ∧ (a.push b).exp = true ∧ (a.push b).buf = a.buf ++ [b]) := by
  have hexp := push_exp_iff b h
  rcases push_cases a b with ⟨hne, -⟩ | ⟨-, hn, hb, e⟩ | ⟨-, hn, -, e⟩ | ⟨-, -, e⟩
  · exact absurd h hne
  · exact .inl ⟨by rw [e], by rw [e], List.length_eq_zero_iff.mp hn, hb⟩
  · have hbuf : a.buf = [] := List.length_eq_zero_iff.mp hn
    exact .inr ⟨by simp [e], by rw [e], by rw [e, hbuf]; rfl⟩
  · have htrue : (a.push b).exp = true := by rw [e]
    exact .inr ⟨hexp.mp htrue, htrue, by rw [e]⟩

/-- R158 (c): an accumulator that waits for more holds at most 258 bytes. -/
theorem n_lt_of_incomplete {a : Accumulator} (h : a.Inv) (hi : a.st = .incomplete) : a.n < 259 := by
  rcases h.incomplete_short hi with h3 | ⟨len, -, hlt⟩
  · omega
  · have := len.isLt
    omega

/-! ### The acknowledgment, by verdict (R193) -/

theorem ack_ne_nack : Config.ack ≠ Config.nack := by decide

theorem ackByte_of_expected {p : Params} {a : Accumulator} (h : expected p a = true) : ackByte p a = Config.ack := if_pos h

theorem ackByte_of_open {p : Params} {a : Accumulator} (h : a.exp = true) (hs : a.st ≠ .crcError) :
    ackByte p a = Config.ack :=
  ackByte_of_expected (expected_of_open h hs)

theorem ackByte_of_rejected {p : Params} {a : Accumulator} (h : a.exp = false) : ackByte p a = Config.nack :=
  (ackByte_nack_iff p a).mpr (expected_of_rejected h)

theorem ackByte_of_crcError {p : Params} {a : Accumulator} (h : a.exp = true) (hs : a.st = .crcError) :
    ackByte p a = if p.lastByte = .crcGated then Config.nack else Config.ack := by
  cases hl : p.lastByte <;> simp [ackByte, expected, h, hs, hl]

/-! ### What `recvReads` and `recvReplies` are, by what DECODE says -/

theorem recvReads_ok {bs : List Byte} {f : Frame} (h : decodeFrame bs = .ok f) :
    recvReads bs = 4 + f.payload.length := by simp [recvReads, h]

theorem recvReads_sofError {bs : List Byte} (h : decodeFrame bs = .error .sofError) : recvReads bs = 1 := by
  simp [recvReads, h]

theorem recvReads_crcError {bs : List Byte} {len : Byte} (h : decodeFrame bs = .error .crcError)
    (hl : bs[2]? = some len) : recvReads bs = 4 + len.toNat := by
  simp [recvReads, h, hl]

theorem recvReads_partial {bs : List Byte} (h : decodeFrame bs = .error .partialFrameError) :
    recvReads bs = bs.length := by simp [recvReads, h]

theorem recvReplies_ok {bs : List Byte} {f : Frame} (policy : LastBytePolicy) (h : decodeFrame bs = .ok f) :
    recvReplies policy bs = List.replicate (recvReads bs) Config.ack := by simp [recvReplies, h]

theorem recvReplies_sofError {bs : List Byte} (policy : LastBytePolicy) (h : decodeFrame bs = .error .sofError) :
    recvReplies policy bs = [Config.nack] := by simp [recvReplies, h]

theorem recvReplies_crcError {bs : List Byte} (policy : LastBytePolicy) (h : decodeFrame bs = .error .crcError) :
    recvReplies policy bs = List.replicate (recvReads bs - 1) Config.ack ++
      [if policy = .crcGated then Config.nack else Config.ack] := by simp [recvReplies, h]

theorem recvReplies_partial {bs : List Byte} (policy : LastBytePolicy) (h : decodeFrame bs = .error .partialFrameError) :
    recvReplies policy bs = List.replicate (recvReads bs) Config.ack := by simp [recvReplies, h]

/-- ACKs hold no NACK. -/
@[simp] theorem count_nack_replicate_ack (n : Nat) : (List.replicate n Config.ack).count Config.nack = 0 :=
  List.count_eq_zero.mpr fun h => ack_ne_nack (List.eq_of_mem_replicate h).symm

/-- R200: at most one NACK, the reply to a wrong start byte or, under `crc_gated`, to the last byte of a frame with a wrong
checksum. -/
theorem count_nack_recvReplies (policy : LastBytePolicy) (bs : List Byte) :
    (recvReplies policy bs).count Config.nack =
      if decodeFrame bs = .error .sofError ∨ decodeFrame bs = .error .crcError ∧ policy = .crcGated then 1 else 0 := by
  cases h : decodeFrame bs with
  | ok f => simp [recvReplies_ok policy h]
  | error e =>
    cases e with
    | sofError => simp [recvReplies_sofError policy h]
    | crcError =>
      rw [recvReplies_crcError policy h, List.count_append, count_nack_replicate_ack]
      cases policy with
      | positionOnly => simp [ack_ne_nack]
      | crcGated => simp
    | partialFrameError => simp [recvReplies_partial policy h]
    | valueError => simp [recvReplies, h]

/-! ### A reception under way -/

/-- A `RECV_FRAME` of the caller's that was accepted in `s₀` waits, in `s`, for the byte after `p`: the bytes of `p` are read,
stored and acknowledged. -/
structure Awaits (s₀ : State) (p : List Byte) (s : State) : Prop where
  phase : s.phase = .rxWait
  portOpen : s.portOpen = true
  inputs : s.inputs = []
  invoke : s.invoke = none
  params : s.params = s₀.params
  inbound : s₀.inbound = p ++ s.inbound
  outbound : s.outbound = s₀.outbound ++ List.replicate p.length Config.ack
  rxNacks : s.rxNacks = 0
  inv : s.dec.Inv
  incomplete : s.dec.st = .incomplete
  buf : s.dec.buf = p

/-- The bytes read and the acknowledgments written up to `t` are those that `DECODE` of the peer's bytes asks of a `RECV_FRAME`
accepted in `s₀` (R193, R310). -/
structure Exchanged (s₀ t : State) : Prop where
  inputs : t.inputs = []
  inbound : t.inbound = s₀.inbound.drop (recvReads s₀.inbound)
  outbound : t.outbound = s₀.outbound ++ recvReplies s₀.params.lastByte s₀.inbound
  rxNacks : t.rxNacks = (recvReplies s₀.params.lastByte s₀.inbound).count Config.nack

/-- A `RECV_FRAME` accepted in `s₀` has ended in `u` as `DECODE` of the peer's bytes says (R190, R252). -/
structure Received (s₀ u : State) : Prop extends Exchanged s₀ u where
  phase : u.phase = .idle
  ok : ∀ f, decodeFrame s₀.inbound = .ok f →
    u.status = .success ∧ u.diag = .none ∧ u.result = some f ∧ u.ending = some (.frame f)
  error : ∀ e, decodeFrame s₀.inbound = .error e →
    u.status = e.status ∧ u.result = none ∧ u.ending = some (.failed e.status) ∧
      u.diag = if e = .partialFrameError then .timeout else .none

/-- A failure entry with the status of the codec error ends the reception (R195 to R197, R262). -/
theorem Exchanged.received_error {s₀ t : State} {e : CodecError} (h : Exchanged s₀ t)
    (hp : t.phase.receiving = true) (hinv : t.invoke = none) (hd : decodeFrame s₀.inbound = .error e) :
    Received s₀ (takeFailure e.status (if e = .partialFrameError then .timeout else .none) t) where
  inputs := h.inputs
  inbound := h.inbound
  outbound := h.outbound
  rxNacks := h.rxNacks
  phase := rfl
  ok := by simp [hd]
  error e' he' := by
    obtain rfl : e = e' := by simpa [hd] using he'
    simp [hp, failureEnding, hinv]

/-- The latched frame ends the reception (R198). -/
theorem Exchanged.received_ok {s₀ t : State} {f : Frame} (h : Exchanged s₀ t) (hinv : t.invoke = none)
    (hd : decodeFrame s₀.inbound = .ok f) : Received s₀ (recvDone f t) := by
  rw [recvDone_none f hinv]
  exact {
    inputs := h.inputs
    inbound := h.inbound
    outbound := h.outbound
    rxNacks := h.rxNacks
    phase := rfl
    ok := fun f' hf' => by
      obtain rfl : f = f' := by simpa [hd] using hf'
      simp
    error := by simp [hd] }

/-- `RECV_FRAME` has just been accepted (R191). -/
theorem awaits_startRecv {s : State} (ho : s.portOpen = true) (hin : s.inputs = []) (hinv : s.invoke = none) :
    Awaits s [] (startRecv s) where
  phase := rfl
  portOpen := ho
  inputs := hin
  invoke := hinv
  params := rfl
  inbound := rfl
  outbound := by simp
  rxNacks := rfl
  inv := empty_inv
  incomplete := rfl
  buf := rfl

/-- The state in which the byte `b` has been read and judged, with its acknowledgment due (R192). -/
def judged (b : Byte) (s : State) : State := { afterRead s with dec := s.dec.push b, phase := .rxReply }

/-- The state in which the acknowledgment of `b` has been written (R194). -/
def answered (b : Byte) (s : State) : State :=
  afterWrite (ackByte s.params (s.dec.push b)) (countNack (judged b s))

@[simp] theorem answered_dec (b : Byte) (s : State) : (answered b s).dec = s.dec.push b := rfl
@[simp] theorem answered_outbound (b : Byte) (s : State) :
    (answered b s).outbound = s.outbound ++ [ackByte s.params (s.dec.push b)] := rfl
@[simp] theorem answered_rxNacks (b : Byte) (s : State) :
    (answered b s).rxNacks = if ackByte s.params (s.dec.push b) = Config.nack then s.rxNacks + 1 else s.rxNacks := rfl

section
variable {s₀ s : State} {p later : List Byte} {b : Byte}

/-- A byte that is no wrong start byte is stored behind `p`, and was expected. -/
theorem Awaits.stored (h : Awaits s₀ p s) (hst : (s.dec.push b).st ≠ .sofError) :
    (s.dec.push b).exp = true ∧ (s.dec.push b).buf = p ++ [b] := by
  rcases push_open b h.incomplete with ⟨hsof, -⟩ | ⟨-, hexp, hbuf⟩
  · exact absurd hsof hst
  · exact ⟨hexp, by rw [hbuf, h.buf]⟩

/-- Over an open port the two steps for one byte end as `afterReply` does in `answered` (R192, R194). -/
theorem Awaits.two_steps (h : Awaits s₀ p s) (hb : s.inbound = b :: later) {u : State}
    (hu : afterReply (answered b s) = .next u) : runSteps 2 s = .next u := by
  have hread : step s = .next (judged b s) := by
    rw [step_nil h.inputs, sequence_rxWait h.phase]
    simp [stepRxWait, readAnswer_byte h.portOpen hb, judged]
  have hwrite : step (judged b s) = .next u := by
    rw [step_nil (s := judged b s) h.inputs, sequence_rxReply rfl, stepRxReply_open (s := judged b s) h.portOpen]
    exact hu
  rw [runSteps_next 1 hread, runSteps_next 0 hwrite, runSteps_zero]

theorem Awaits.answered_inbound (h : Awaits s₀ p s) (hb : s.inbound = b :: later) :
    (answered b s).inbound = later := by
  simp [answered, judged, h.portOpen, hb]

/-- An expected byte that leaves the frame incomplete is acknowledged, and the next one is awaited. -/
theorem Awaits.incomplete_byte (h : Awaits s₀ p s) (hb : s.inbound = b :: later)
    (hst : (s.dec.push b).st = .incomplete) : Awaits s₀ (p ++ [b]) { answered b s with phase := .rxWait } := by
  obtain ⟨hexp, hbuf⟩ := h.stored (b := b) (by simp [hst])
  have hack : ackByte s.params (s.dec.push b) = Config.ack := ackByte_of_open hexp (by simp [hst])
  exact {
    phase := rfl
    portOpen := h.portOpen
    inputs := h.inputs
    invoke := h.invoke
    params := h.params
    inbound := by simp [h.answered_inbound hb, h.inbound, hb]
    outbound := by simp [hack, h.outbound, List.replicate_succ']
    rxNacks := by simp [hack, h.rxNacks, ack_ne_nack]
    inv := push_inv b h.inv
    incomplete := hst
    buf := hbuf }

/-- The last byte read and its acknowledgment complete the exchange when `DECODE` reads as many bytes and gives it the same
acknowledgment. -/
theorem Awaits.exchanged (h : Awaits s₀ p s) (hb : s.inbound = b :: later)
    (hreads : recvReads s₀.inbound = p.length + 1)
    (hreplies : recvReplies s₀.params.lastByte s₀.inbound =
      List.replicate p.length Config.ack ++ [ackByte s₀.params (s.dec.push b)]) : Exchanged s₀ (answered b s) where
  inputs := h.inputs
  inbound := by
    rw [h.answered_inbound hb, hreads, h.inbound, hb]
    simp
  outbound := by rw [hreplies, answered_outbound, h.outbound, h.params, List.append_assoc]
  rxNacks := by
    rw [hreplies, answered_rxNacks, h.rxNacks, h.params, List.count_append, count_nack_replicate_ack,
      List.count_singleton]
    simp

/-- A read that finds nothing: all of the peer's bytes are read, and they are the beginning of a frame (R196). -/
theorem Awaits.timeout (h : Awaits s₀ p s) (hin : s.inbound = []) : ∃ u, runSteps 1 s = .next u ∧ Received s₀ u := by
  have hall : s₀.inbound = p := by rw [h.inbound, hin, List.append_nil]
  obtain ⟨hpartial, -⟩ := decodeFrame_of_inv h.inv
  have hd : decodeFrame s₀.inbound = .error .partialFrameError := by rw [hall, ← h.buf]; exact hpartial h.incomplete
  have hex : Exchanged s₀ (afterRead s) := {
    inputs := h.inputs
    inbound := by rw [recvReads_partial hd, List.drop_length, afterRead_inbound, hin]; simp
    outbound := by rw [recvReplies_partial _ hd, recvReads_partial hd, afterRead_outbound, h.outbound, hall]
    rxNacks := by rw [recvReplies_partial _ hd, count_nack_replicate_ack]; exact h.rxNacks }
  have hstep : step s = .next (takeFailure .recvPartialFrameValidationError .timeout (afterRead s)) := by
    rw [step_nil h.inputs, sequence_rxWait h.phase]
    simp [stepRxWait, readAnswer_timeout h.portOpen hin]
  refine ⟨_, runSteps_next 0 hstep, ?_⟩
  exact hex.received_error (receiving_iff.mpr (.inl h.phase)) h.invoke hd

/-- The byte is a wrong start byte: it is the first, and `DECODE` rejects it too (R195). -/
theorem Awaits.wrong_start (h : Awaits s₀ p s) (hb : s.inbound = b :: later) (hnever : s₀.params.desync = .never)
    (hst : (s.dec.push b).st = .sofError) : ∃ u, afterReply (answered b s) = .next u ∧ Received s₀ u := by
  obtain ⟨hexp, hbuf, hne⟩ : (s.dec.push b).exp = false ∧ s.dec.buf = [] ∧ b ≠ Config.sof := by
    rcases push_open b h.incomplete with ⟨-, hexp, hbuf, hne⟩ | ⟨hno, -⟩
    · exact ⟨hexp, hbuf, hne⟩
    · exact absurd hst hno
  have hp : p = [] := h.buf.symm.trans hbuf
  have hd : decodeFrame s₀.inbound = .error .sofError := by
    rw [h.inbound, hp, hb]
    exact decodeFrame_wrongStart later hne
  have hex : Exchanged s₀ (answered b s) := by
    refine h.exchanged hb ?_ ?_
    · rw [recvReads_sofError hd, hp]; rfl
    · rw [recvReplies_sofError _ hd, ackByte_of_rejected hexp, hp]; rfl
  have hrun : afterReply (answered b s) = .next (takeFailure .recvFrameSofError .none (answered b s)) := by
    rw [← verdictFailure_never (s := answered b s) .recvFrameSofError ((congrArg _ h.params).trans hnever)]
    simp [afterReply, hst]
  exact ⟨_, hrun, hex.received_error rfl h.invoke hd⟩

/-- The byte is the last of a frame with a wrong checksum (R197). -/
theorem Awaits.crc_error (h : Awaits s₀ p s) (hb : s.inbound = b :: later) (hnever : s₀.params.desync = .never)
    (hst : (s.dec.push b).st = .crcError) : ∃ u, afterReply (answered b s) = .next u ∧ Received s₀ u := by
  obtain ⟨hexp, hbuf⟩ := h.stored (b := b) (by simp [hst])
  have hall : s₀.inbound = (s.dec.push b).buf ++ later := by rw [h.inbound, hb, hbuf]; simp
  obtain ⟨-, -, hcrc⟩ := decodeFrame_of_inv (push_inv b h.inv)
  have hd : decodeFrame s₀.inbound = .error .crcError := by rw [hall]; exact hcrc hst later
  have hreads : recvReads s₀.inbound = p.length + 1 := by
    obtain ⟨len, hlen, hn⟩ := (push_inv b h.inv).judged_full (.inr hst)
    have hlen' : s₀.inbound[2]? = some len := by
      rw [hall, List.getElem?_append_left (List.getElem?_eq_some_iff.mp hlen).1]
      exact hlen
    rw [recvReads_crcError hd hlen', ← hn, Accumulator.n, hbuf, List.length_append, List.length_singleton]
  have hex : Exchanged s₀ (answered b s) := by
    refine h.exchanged hb hreads ?_
    rw [recvReplies_crcError _ hd, hreads, ackByte_of_crcError hexp hst, Nat.add_sub_cancel]
  have hrun : afterReply (answered b s) = .next (takeFailure .recvFrameCrcError .none (answered b s)) := by
    rw [← verdictFailure_never (s := answered b s) .recvFrameCrcError ((congrArg _ h.params).trans hnever)]
    simp [afterReply, hst]
  exact ⟨_, hrun, hex.received_error rfl h.invoke hd⟩

/-- The byte completes a frame (R198). -/
theorem Awaits.complete (h : Awaits s₀ p s) (hb : s.inbound = b :: later) (hst : (s.dec.push b).st = .complete) :
    ∃ u, afterReply (answered b s) = .next u ∧ Received s₀ u := by
  obtain ⟨hexp, hbuf⟩ := h.stored (b := b) (by simp [hst])
  have hall : s₀.inbound = (s.dec.push b).buf ++ later := by rw [h.inbound, hb, hbuf]; simp
  obtain ⟨-, hcomplete, -⟩ := decodeFrame_of_inv (push_inv b h.inv)
  obtain ⟨f, hf, hlen, hdec⟩ := hcomplete hst
  have hd : decodeFrame s₀.inbound = .ok f := by rw [hall]; exact hdec later
  have hreads : recvReads s₀.inbound = p.length + 1 := by
    rw [recvReads_ok hd, Nat.add_comm, hlen, Accumulator.n, hbuf, List.length_append, List.length_singleton]
  have hex : Exchanged s₀ (answered b s) := by
    refine h.exchanged hb hreads ?_
    rw [recvReplies_ok _ hd, hreads, ackByte_of_open hexp (by simp [hst]), List.replicate_succ']
  have hrun : afterReply (answered b s) = .next (recvDone f (answered b s)) := by
    simp [afterReply, hst, hf]
  exact ⟨_, hrun, hex.received_ok h.invoke hd⟩

end

/-- A reception that has ended stays as it is (R281). -/
theorem Received.runSteps_of_le {s₀ s u : State} {j k : Nat} (h : Received s₀ u) (hu : runSteps j s = .next u)
    (hjk : j ≤ k) : runSteps k s = .next u := by
  obtain ⟨d, rfl⟩ := Nat.exists_eq_add_of_le hjk
  rw [runSteps_add d hu, runSteps_idle d h.inputs h.phase]

/-- R204: from the byte after `p` on, a reception ends within two steps for each byte a frame may still have. By induction on
what the peer has sent and the block has not read. -/
theorem Awaits.runs {s₀ : State} (hnever : s₀.params.desync = .never) (later : List Byte) {p : List Byte} {s : State}
    (h : Awaits s₀ p s) (hin : s.inbound = later) :
    ∃ u, runSteps (2 * (259 - p.length)) s = .next u ∧ Received s₀ u := by
  induction later generalizing p s with
  | nil =>
    have hlt : p.length < 259 := h.buf ▸ n_lt_of_incomplete h.inv h.incomplete
    obtain ⟨u, hu, hr⟩ := h.timeout hin
    exact ⟨u, hr.runSteps_of_le hu (by omega), hr⟩
  | cons b later ih =>
    have hlt : p.length < 259 := h.buf ▸ n_lt_of_incomplete h.inv h.incomplete
    have ends : (∃ u, afterReply (answered b s) = .next u ∧ Received s₀ u) →
        ∃ u, runSteps (2 * (259 - p.length)) s = .next u ∧ Received s₀ u := fun ⟨u, hu, hr⟩ =>
      ⟨u, hr.runSteps_of_le (h.two_steps hin hu) (by omega), hr⟩
    cases hst : (s.dec.push b).st with
    | incomplete =>
      have htwo : runSteps 2 s = .next { answered b s with phase := .rxWait } :=
        h.two_steps hin (by simp [afterReply, hst])
      obtain ⟨u, hu, hr⟩ := ih (h.incomplete_byte hin hst) (h.answered_inbound hin)
      have hsteps : 2 * (259 - p.length) = 2 + 2 * (259 - (p ++ [b]).length) := by
        rw [List.length_append, List.length_singleton]
        omega
      exact ⟨u, by rw [hsteps, runSteps_add _ htwo, hu], hr⟩
    | sofError => exact ends (h.wrong_start hin hnever hst)
    | crcError => exact ends (h.crc_error hin hnever hst)
    | complete => exact ends (h.complete hin hst)

/-- R200, of the status: at most one NACK was written, and one exactly when the reception ended with -6, or under `crc_gated`
with -4. -/
theorem Received.rxNacks_iff {s₀ u : State} (h : Received s₀ u) : u.rxNacks ≤ 1 ∧
    (u.rxNacks = 1 ↔
      u.status = .recvFrameSofError ∨ u.status = .recvFrameCrcError ∧ s₀.params.lastByte = .crcGated) := by
  have hcount := h.rxNacks.trans (count_nack_recvReplies s₀.params.lastByte s₀.inbound)
  refine ⟨by rw [hcount]; split <;> decide, ?_⟩
  cases hd : decodeFrame s₀.inbound with
  | ok f =>
    obtain ⟨hstatus, -⟩ := h.ok f hd
    simp [hcount, hd, hstatus]
  | error e =>
    obtain ⟨hstatus, -⟩ := h.error e hd
    cases e <;> simp [hcount, hd, hstatus, CodecError.status]

/-- Settles O58: the run of the reception (`Awaits.runs`) from the state in which it was accepted, and the count of its NACKs
(`Received.rxNacks_iff`). -/
theorem recvFrameAgreesWithDecode : Obligations.RecvFrameAgreesWithDecode := by
  intro s hp hc ho hin hinv hnever
  obtain ⟨u, hu, hr⟩ := (awaits_startRecv ho hin hinv).runs hnever _ rfl
  obtain ⟨hle, hiff⟩ := hr.rxNacks_iff
  have haccept : exec .recvFrame s = .next (startRecv s) := by
    simp [exec, execRecvFrame, transferRefusal_none hp hc]
  refine ⟨_, u, haccept, hu, hr.phase, hr.inbound, hr.outbound, ?_, hr.rxNacks, hle, hiff⟩
  cases hd : decodeFrame s.inbound with
  | ok f => exact hr.ok f hd
  | error e => exact hr.error e hd

end Sys2Proof.Machine
end

section
/-! The decoder and the encoder are inverse to each other (`30_encoding.md`, R90 to R105): what encodes an instruction decodes
to it, and whatever decodes is encoded by what was presented, the two reserved codes aside. -/

namespace Sys2Proof.Machine

open Sys2Proof Sys2Proof.Laws

/-- Settles O46, row by row: an operation by the computation of its code and operand forms, a frame by `decode_wireFrame`. -/
theorem decodeEncodeIsTheInstruction : Obligations.DecodeEncodeIsTheInstruction := by
  intro i
  cases i with
  | crcClr => exact EncodeDecode.crcClr
  | crcUpd b => exact EncodeDecode.crcUpd b
  | crcRd => exact EncodeDecode.crcRd
  | checksum bs => exact EncodeDecode.checksum bs
  | encode kind payload => exact EncodeDecode.encode kind payload
  | decRst => exact EncodeDecode.decRst
  | decPush b => exact EncodeDecode.decPush b
  | decQry => exact EncodeDecode.decQry
  | decode bs => exact EncodeDecode.decode bs
  | sendFrame kind payload => exact EncodeDecode.sendFrame kind payload
  | recvFrame => exact EncodeDecode.recvFrame
  | invoke kind args => exact EncodeDecode.invoke kind args
  | claim port => exact EncodeDecode.claim port
  | release => exact EncodeDecode.release
  | reservedE => exact EncodeDecode.reservedE
  | reservedF => exact EncodeDecode.reservedF
  | frame crc kind payload => exact EncodeDecode.frame crc kind payload
  | ack => exact EncodeDecode.ack
  | nack => exact EncodeDecode.nack
  | frameGetLowPowerEnable crc payload => exact EncodeDecode.frameGetLowPowerEnable crc payload
  | frameGetDi crc payload => exact EncodeDecode.frameGetDi crc payload

/-! ### What the wire decodes to -/

/-- R103: a kind belongs to one of three rows. -/
theorem frameInstr_cases (crc kind : Byte) (payload : List Byte) :
    (kind = Config.kindGetLowPowerEnable ∧ frameInstr crc kind payload = .frameGetLowPowerEnable crc payload) ∨
    (kind = Config.kindGetDi ∧ frameInstr crc kind payload = .frameGetDi crc payload) ∨
    (isExampleKind kind = false ∧ frameInstr crc kind payload = .frame crc kind payload) := by
  unfold frameInstr
  split
  next h => exact .inl ⟨h, rfl⟩
  next hLow =>
    split
    next h => exact .inr (.inl ⟨h, rfl⟩)
    next hDi => exact .inr (.inr ⟨by simp [isExampleKind, hLow, hDi], rfl⟩)

theorem frameInstr_wf (crc kind : Byte) {payload : List Byte} (h : payloadFits payload = true) :
    (frameInstr crc kind payload).wf = true := by
  rcases frameInstr_cases crc kind payload with ⟨-, e⟩ | ⟨-, e⟩ | ⟨hk, e⟩ <;> rw [e]
  · exact h
  · exact h
  · simp [Instr.wf, h, hk]

theorem encode_frameInstr (crc kind : Byte) (payload : List Byte) :
    encode (frameInstr crc kind payload) = .wire (wireFrame crc kind payload) := by
  rcases frameInstr_cases crc kind payload with ⟨rfl, e⟩ | ⟨rfl, e⟩ | ⟨-, e⟩ <;> rw [e] <;> rfl

/-- A header whose `length` counts the payload behind it is the one that `wireFrame` writes (R92). -/
theorem wireFrame_of_length (crc kind : Byte) {len : Byte} {payload : List Byte} (h : payload.length = len.toNat) :
    payloadFits payload = true ∧ Config.sof :: crc :: len :: kind :: payload = wireFrame crc kind payload := by
  have hlt := len.isLt
  refine ⟨decide_eq_true (show payload.length ≤ 255 by omega), ?_⟩
  rw [wireFrame, h, BitVec.ofNat_toNat, BitVec.setWidth_eq]

/-- Everything the wire decodes to: one of the two acknowledgment bytes (R97), or one whole frame (R90, R96). -/
theorem decodeWire_ok {bytes : List Byte} {i : Instr} (h : decodeWire bytes = .ok i) :
    (bytes = [Config.ack] ∧ i = .ack) ∨ (bytes = [Config.nack] ∧ i = .nack) ∨
    ∃ crc kind payload, payloadFits payload = true ∧ bytes = wireFrame crc kind payload ∧
      i = frameInstr crc kind payload := by
  unfold decodeWire at h
  split at h
  next => cases h
  next b =>
    split_ifs at h with hack hnack
    · exact .inl ⟨by rw [hack], (Except.ok.inj h).symm⟩
    · exact .inr (.inl ⟨by rw [hnack], (Except.ok.inj h).symm⟩)
  next start crc len kind payload =>
    split_ifs at h with hstart hge hle
    obtain rfl := not_not.mp hstart
    obtain ⟨hfits, hbytes⟩ := wireFrame_of_length crc kind (Nat.le_antisymm (not_lt.mp hle) (not_lt.mp hge))
    exact .inr (.inr ⟨crc, kind, payload, hfits, hbytes, (Except.ok.inj h).symm⟩)
  next => split at h <;> cases h

theorem decodeWire_encoded {bytes : List Byte} {i : Instr} (h : decodeWire bytes = .ok i) :
    i.wf = true ∧ encode i = .wire bytes := by
  rcases decodeWire_ok h with ⟨rfl, rfl⟩ | ⟨rfl, rfl⟩ | ⟨crc, kind, payload, hfits, rfl, rfl⟩
  · exact ⟨rfl, rfl⟩
  · exact ⟨rfl, rfl⟩
  · exact ⟨frameInstr_wf crc kind hfits, encode_frameInstr crc kind payload⟩

/-! ### What the operation port decodes to -/

/-- A request is its code, whose number the decoder reads, and its operands (R104). -/
theorem op_eq_of_toNat_eq {r : Request} {code : Nibble} {operands : List Operand}
    (hcode : r.code.toNat = code.toNat) (hoperands : r.operands = operands) : Presented.op ⟨code, operands⟩ = .op r := by
  rw [← hoperands, ← BitVec.eq_of_toNat_eq hcode]

/-- What `decodeOp` can answer: the instruction that the request encodes; a reserved code, whatever stands beside it; or that
the operands have no form of the code's (R104; log 4). -/
inductive OpAnswer (r : Request) : Except DecodeError Instr → Prop where
  | encoded (i : Instr) (wf : i.wf = true) (encodes : encode i = .op r) : OpAnswer r (.ok i)
  | reservedE (code : r.code = 0xE#4) : OpAnswer r (.ok .reservedE)
  | reservedF (code : r.code = 0xF#4) : OpAnswer r (.ok .reservedF)
  | operandShape : OpAnswer r (.error .operandShape)

/-- Match arm by match arm: the two reserved codes (15th and 16th), the arm that is left, and the fourteen operations. -/
theorem decodeOp_answer (r : Request) : OpAnswer r (decodeOp r) := by
  unfold decodeOp
  split
  case h_15 hcode => exact .reservedE (BitVec.eq_of_toNat_eq hcode)
  case h_16 hcode => exact .reservedF (BitVec.eq_of_toNat_eq hcode)
  case h_17 => exact .operandShape
  all_goals next hcode hoperands => exact .encoded _ rfl (op_eq_of_toNat_eq hcode hoperands)

theorem decodeOp_ok {r : Request} {i : Instr} (h : decodeOp r = .ok i) :
    i.wf = true ∧ (encode i = .op r ∨ (r.code = 0xE#4 ∧ i = .reservedE) ∨ (r.code = 0xF#4 ∧ i = .reservedF)) := by
  have ha := decodeOp_answer r
  rw [h] at ha
  cases ha with
  | encoded _ wf encodes => exact ⟨wf, .inl encodes⟩
  | reservedE code => exact ⟨rfl, .inr (.inl ⟨code, rfl⟩)⟩
  | reservedF code => exact ⟨rfl, .inr (.inr ⟨code, rfl⟩)⟩

theorem decodeOp_error {r : Request} (hnone : ∀ i : Instr, encode i ≠ .op r) (hE : r.code ≠ 0xE#4)
    (hF : r.code ≠ 0xF#4) : decodeOp r = .error .operandShape := by
  have ha := decodeOp_answer r
  generalize decodeOp r = answer at ha ⊢
  cases ha with
  | encoded i _ encodes => exact absurd encodes (hnone i)
  | reservedE code => exact absurd code hE
  | reservedF code => exact absurd code hF
  | operandShape => rfl

/-- Settles O47: `decodeWire_encoded` for the wire, `decodeOp_ok` and `decodeOp_error` for the operation port. -/
theorem onlyEncodingsDecode : Obligations.OnlyEncodingsDecode := by
  refine ⟨fun _ _ => decodeWire_encoded, fun _ _ => decodeOp_ok, fun r s rest hnone hE hF hin => ?_⟩
  rw [step_cons hin]
  simp only [takeInput, present, decode, decodeOp_error hnone hE hF, undecoded]

/-! ### The reserved codes and words of the table -/

/-- Settles O25: the decoder asks a reserved code for no operands, and its meaning looks at no state. -/
theorem reservedCodesAreRefused : Obligations.ReservedCodesAreRefused :=
  fun _ _ => ⟨rfl, rfl, rfl, rfl⟩

/-- Settles O45, word by word. -/
theorem tableWordsDecode : Obligations.TableWordsDecode := ⟨rfl, rfl, rfl, rfl, rfl, rfl, rfl⟩

end Sys2Proof.Machine
end

section
/-! `CLAIM` in `IDLE` (R231 to R235). -/

namespace Sys2Proof.Machine

open Sys2Proof

/-- R232: the candidates with the configured USB identity. -/
theorem portsToTry_dioCard {p : Params} (h : p.device = .dioCard) (n : Nat) (port : Option PortName) :
    portsToTry p n port =
      ((Config.candidates n).filter fun c => c.vid = p.dioVid ∧ c.pid = p.dioPid).map Candidate.name := by
  simp [portsToTry, h, beq_eq_decide]

/-- R233: the port the caller names. -/
theorem portsToTry_automotive {p : Params} (h : p.device = .automotive) (n : Nat) (port : Option PortName) :
    portsToTry p n port = port.toList := by
  cases port <;> simp [portsToTry, h]

theorem execClaim_idle {s : State} (port : Option PortName) (h : s.phase = .idle) :
    execClaim port s = .next (claimPort (discover s.params s.free port) s) := by
  simp [execClaim, busyRefusal_eq_none.mpr h]

/-- Settles O27: the ports tried are `portsToTry`, and `claimPort` leaves what the search among them found. -/
theorem claimEndsWithPortOrDiscoveryError : Obligations.ClaimEndsWithPortOrDiscoveryError := by
  intro port s hidle
  refine ⟨rfl, portsToTry s.params s.free port, fun hd => portsToTry_dioCard hd s.free port,
    fun hd => portsToTry_automotive hd s.free port, ?_⟩
  rw [exec, execClaim_idle port hidle, discover]
  split
  next name hfound => rw [hfound]; rfl
  next hfound => rw [hfound]; rfl

end Sys2Proof.Machine
end

section
/-! The role changes nothing but the direction labels of the trace (R112, R202, R270): a state and the same state under another
role and behind another trace take the same step. -/

namespace Sys2Proof.Machine

open Sys2Proof

/-! ### Discovery does not read the role -/

theorem ackedBefore_role (p : Params) (role : Role) (k : Nat) (rs : List ProbeReply) :
    ackedBefore { p with role := role } k rs = ackedBefore p k rs := by
  induction rs generalizing k with
  | nil => cases k <;> rfl
  | cons r rs ih =>
    cases k with
    | zero => rfl
    | succ k => rw [ackedBefore, ackedBefore, ih, ih]; rfl

theorem discover_role (p : Params) (role : Role) (n : Nat) (port : Option PortName) :
    discover { p with role := role } n port = discover p n port := by
  unfold discover probePasses
  simp only [ackedBefore_role]
  rfl

/-! ### The other role and trace -/

/-- The state as an engine of another role, with another trace behind it, would have it. -/
def relabel (role : Role) (labels : List LinkEvent) (s : State) : State :=
  { s with params := { s.params with role := role }, trace := labels }

/-- An outcome whose next state, if it is one, is changed by `f`. -/
def mapNext (f : State → State) : Host.Outcome State Fault Refusal → Host.Outcome State Fault Refusal
  | .next t => .next (f t)
  | .fault r => .fault r
  | .refused r => .refused r

section Relabel

variable (role : Role) (labels : List LinkEvent)

@[simp] theorem relabel_dec (s : State) : (relabel role labels s).dec = s.dec := rfl
@[simp] theorem relabel_phase (s : State) : (relabel role labels s).phase = s.phase := rfl
@[simp] theorem relabel_inputs (s : State) : (relabel role labels s).inputs = s.inputs := rfl

theorem busyRefusal_relabel (s : State) : busyRefusal (relabel role labels s) = busyRefusal s := rfl

theorem accumulatorRefusal_relabel (s : State) :
    accumulatorRefusal (relabel role labels s) = accumulatorRefusal s := rfl

theorem transferRefusal_relabel (s : State) : transferRefusal (relabel role labels s) = transferRefusal s := rfl

/-! ### The operations -/

theorem invokeStart_relabel (kind : Byte) (args : Args) (s : State) :
    invokeStart kind args (relabel role labels s) = relabel role labels (invokeStart kind args s) := by
  unfold invokeStart
  cases argMissing kind args
  case true => rfl
  cases Config.guardViolated kind args
  case true => rfl
  cases encodeArgs kind args with
  | none => rfl
  | some payload =>
    dsimp only
    cases encodeFrame kind payload <;> rfl

theorem discover_relabel (port : Option PortName) (s : State) :
    discover (relabel role labels s).params (relabel role labels s).free port = discover s.params s.free port :=
  discover_role s.params role s.free port

/-- What each operation and each symbol does, and whether it is refused, is settled without the role and the trace. -/
theorem exec_relabel (i : Instr) (s : State) :
    exec i (relabel role labels s) = mapNext (relabel role labels) (exec i s) := by
  cases i with
  | decRst =>
    simp only [exec, execDecRst, accumulatorRefusal_relabel]
    cases accumulatorRefusal s <;> rfl
  | decPush b =>
    simp only [exec, execDecPush, accumulatorRefusal_relabel]
    cases accumulatorRefusal s <;> rfl
  | decQry =>
    simp only [exec, execDecQry, relabel_dec]
    cases s.dec.st with
    | complete => cases frameIn s.dec.buf <;> rfl
    | incomplete | sofError | crcError => rfl
  | sendFrame kind payload =>
    simp only [exec, execSendFrame, transferRefusal_relabel]
    cases transferRefusal s with
    | some r => rfl
    | none => cases encodeFrame kind payload <;> rfl
  | recvFrame =>
    simp only [exec, execRecvFrame, transferRefusal_relabel]
    cases transferRefusal s <;> rfl
  | invoke kind args =>
    simp only [exec, execInvoke, transferRefusal_relabel, invokeStart_relabel]
    cases transferRefusal s <;> rfl
  | claim port =>
    simp only [exec, execClaim, busyRefusal_relabel, discover_relabel]
    cases busyRefusal s <;> rfl
  | _ => rfl

theorem present_relabel (p : Presented) (s : State) :
    present p (relabel role labels s) = mapNext (relabel role labels) (present p s) := by
  unfold present
  cases decode p with
  | ok i => exact exec_relabel role labels i s
  | error e => cases p <;> rfl

/-! ### The ends of a transfer -/

theorem acked_relabel (s : State) : acked (relabel role labels s) = relabel role labels (acked s) := by
  rcases acked_cases s with ⟨h, e⟩ | ⟨h, hi, e⟩ | ⟨k, h, hi, e⟩ <;> rw [e]
  · exact if_neg h
  · exact (if_pos h).trans (sendDone_none hi)
  · exact (if_pos h).trans (sendDone_some hi)

theorem verdictFailure_relabel (own : Status) (s : State) :
    verdictFailure own (relabel role labels s) = relabel role labels (verdictFailure own s) := by
  rw [verdictFailure, verdictFailure, apply_ite (relabel role labels)]
  rfl

theorem recvDone_relabel (f : Frame) (s : State) :
    recvDone f (relabel role labels s) = relabel role labels (recvDone f s) := by
  cases hi : s.invoke with
  | none => rw [recvDone_none f hi]; exact recvDone_none f hi
  | some kind => rw [recvDone_some f hi]; exact recvDone_some f hi

theorem afterReply_relabel (s : State) :
    afterReply (relabel role labels s) = mapNext (relabel role labels) (afterReply s) := by
  simp only [afterReply, relabel_dec, verdictFailure_relabel, recvDone_relabel]
  cases s.dec.st with
  | complete => cases frameIn s.dec.buf <;> rfl
  | incomplete | sofError | crcError => rfl

end Relabel

/-! ### The link primitives of a step -/

/-- Events of one direction (R112). -/
def eventsOf (d : Dir) (marks : List Mark) : List LinkEvent := marks.map (LinkEvent.mk d)

@[simp] theorem eventsOf_nil (d : Dir) : eventsOf d [] = [] := rfl

@[simp] theorem map_mark_eventsOf (d : Dir) (marks : List Mark) : (eventsOf d marks).map (·.mark) = marks := by
  simp [eventsOf, Function.comp_def]

theorem readAnswer_relabel (role : Role) (labels : List LinkEvent) (s : State) :
    readAnswer (relabel role labels s) = readAnswer s := rfl

theorem afterRead_relabel (role : Role) (labels : List LinkEvent) (s : State) : afterRead (relabel role labels s) =
    relabel role (labels ++ eventsOf (readDir role) [(readAnswer s).mark]) (afterRead s) := rfl

/-- The role and the trace matter to `f` in `s` for nothing but this: the marks that `f` appends get the direction that the
role gives them. -/
def OnlyLabels (f : State → Host.Outcome State Fault Refusal) (s : State) : Prop :=
  ∃ (dir : Role → Dir) (marks : List Mark), ∀ role labels,
    f (relabel role labels s) = mapNext (relabel role (labels ++ eventsOf (dir role) marks)) (f s)

/-- What looks at neither and appends nothing. -/
theorem onlyLabels_of_silent {f : State → Host.Outcome State Fault Refusal} {s : State}
    (h : ∀ role labels, f (relabel role labels s) = mapNext (relabel role labels) (f s)) : OnlyLabels f s :=
  ⟨writeDir, [], by simpa using h⟩

theorem stepTxWrite_fault {s : State} (hb : s.memRead .txBuf s.txIdx = none) :
    stepTxWrite s = .fault (.noValue .txBuf) := by simp [stepTxWrite, hb]

theorem stepTxWrite_onlyLabels (s : State) : OnlyLabels stepTxWrite s := by
  cases hb : s.memRead .txBuf s.txIdx with
  | none =>
    refine onlyLabels_of_silent fun role labels => ?_
    rw [stepTxWrite_fault hb]
    exact stepTxWrite_fault (s := relabel role labels s) hb
  | some b =>
    cases ho : s.portOpen
    · refine ⟨writeDir, [.closed], fun role labels => ?_⟩
      rw [stepTxWrite_closed hb ho]
      exact stepTxWrite_closed (s := relabel role labels s) hb ho
    · refine ⟨writeDir, [.byte b], fun role labels => ?_⟩
      rw [stepTxWrite_open hb ho]
      exact stepTxWrite_open (s := relabel role labels s) hb ho

theorem stepTxWait_onlyLabels (s : State) : OnlyLabels stepTxWait s := by
  refine ⟨readDir, [(readAnswer s).mark], fun role labels => ?_⟩
  simp only [stepTxWait, readAnswer_relabel, afterRead_relabel, acked_relabel]
  cases readAnswer s with
  | byte b => by_cases hb : b = Config.ack <;> simp only [hb, if_true, if_false] <;> rfl
  | timeout | closed => rfl

theorem stepRxWait_onlyLabels (s : State) : OnlyLabels stepRxWait s := by
  refine ⟨readDir, [(readAnswer s).mark], fun role labels => ?_⟩
  simp only [stepRxWait, readAnswer_relabel, afterRead_relabel]
  cases readAnswer s <;> rfl

theorem stepRxReply_onlyLabels (s : State) : OnlyLabels stepRxReply s := by
  cases ho : s.portOpen
  · refine ⟨writeDir, [.closed], fun role labels => ?_⟩
    rw [stepRxReply_closed ho]
    exact stepRxReply_closed (s := relabel role labels s) ho
  · refine ⟨writeDir, [.byte (ackByte s.params s.dec)], fun role labels => ?_⟩
    rw [stepRxReply_open ho, ← afterReply_relabel]
    exact stepRxReply_open (s := relabel role labels s) ho

theorem sequence_onlyLabels (s : State) : OnlyLabels sequence s := by
  unfold OnlyLabels sequence
  simp only [relabel_phase]
  cases s.phase with
  | idle => exact onlyLabels_of_silent fun _ _ => rfl
  | txWrite => exact stepTxWrite_onlyLabels s
  | txWait => exact stepTxWait_onlyLabels s
  | rxWait => exact stepRxWait_onlyLabels s
  | rxReply => exact stepRxReply_onlyLabels s

theorem takeInput_onlyLabels (i : Input) (s : State) : OnlyLabels (takeInput i) s := by
  cases i with
  | present p => exact onlyLabels_of_silent fun role labels => present_relabel role labels p s
  | run => exact sequence_onlyLabels s
  | link _ _ | closePort | reset => exact onlyLabels_of_silent fun _ _ => rfl

theorem step_onlyLabels (s : State) : OnlyLabels step s := by
  unfold OnlyLabels step
  simp only [relabel_inputs]
  cases s.inputs with
  | nil => exact sequence_onlyLabels s
  | cons i rest => exact takeInput_onlyLabels i { s with inputs := rest }

/-- Settles O55: by `step_onlyLabels` the run under the other role and trace appends the same marks, and so does, with the
role and the trace that `s` has, the run itself. -/
theorem roleOnlyLabelsTheTrace : Obligations.RoleOnlyLabelsTheTrace := by
  refine ⟨rfl, rfl, rfl, rfl, fun s t role labels h => ?_⟩
  obtain ⟨dir, marks, hrun⟩ := step_onlyLabels s
  rw [h] at hrun
  have hown : t = relabel s.params.role (s.trace ++ eventsOf (dir s.params.role) marks) t :=
    Host.Outcome.next.inj (h.symm.trans (hrun s.params.role s.trace))
  exact ⟨_, eventsOf (dir s.params.role) marks, eventsOf (dir role) marks, hrun role labels, rfl,
    congrArg State.trace hown, by simp⟩

end Sys2Proof.Machine
end

section
/-! The Checksum Unit (R130 to R139). -/

namespace Sys2Proof.Machine

open Sys2Proof

/-! ### The operations -/

/-- Settles O3: the operation is its assignment (R133), and its code is in the encoder. -/
theorem crcClrClearsTheRegister : Obligations.CrcClrClearsTheRegister := fun _ => ⟨rfl, rfl⟩

/-- Settles O4: the operation is its assignment (R134), and its code is in the encoder. -/
theorem crcUpdFoldsOneByte : Obligations.CrcUpdFoldsOneByte := fun _ _ => ⟨rfl, rfl⟩

/-- Settles O5: the operation only ends with the register (R135), and its code is in the encoder. -/
theorem crcRdReturnsTheRegister : Obligations.CrcRdReturnsTheRegister := fun _ => ⟨rfl, rfl⟩

/-- Settles O6: `crc8` is the fold of the step from `CRC_INIT`, which is 0x00 (R136). -/
theorem checksumIsTheStreamedChecksum : Obligations.ChecksumIsTheStreamedChecksum := fun _ _ => ⟨rfl, rfl⟩

/-! ### Several shift steps -/

theorem crcShifts_eq_iterate (k : Nat) (x : Byte) : crcShifts k x = crcShift^[k] x := by
  induction k generalizing x with
  | zero => rfl
  | succ k ih => exact ih (crcShift x)

theorem crcShifts_zero (k : Nat) : crcShifts k 0x00#8 = 0x00#8 := by
  rw [crcShifts_eq_iterate]
  exact Function.iterate_fixed rfl k

theorem crcShifts_add (m n : Nat) (x : Byte) : crcShifts (m + n) x = crcShifts m (crcShifts n x) := by
  simp only [crcShifts_eq_iterate, Function.iterate_add_apply]

/-- Up to eight shift steps map only zero to zero, since the remaining ones make the table of them. -/
theorem crcShifts_eq_zero {k : Nat} (hk : k ≤ 8) {x : Byte} (h : crcShifts k x = 0x00#8) : x = 0x00#8 := by
  have h8 : crcShifts 8 x = 0x00#8 := by
    calc crcShifts 8 x = crcShifts (8 - k + k) x := by rw [Nat.sub_add_cancel hk]
      _ = 0x00#8 := by rw [crcShifts_add, h, crcShifts_zero]
  exact table_eq_zero x (by rwa [crc8Step, BitVec.zero_xor])

/-! ### The 9-bit form (R132) -/

/-- A shift step on a 9-bit value: the generator 0x107 is subtracted when bit 8 is set after the shift. -/
def nineBitShift (v : Nat) : Nat := if 0x100 ≤ 2 * v then (2 * v) ^^^ 0x107 else 2 * v

/-- Bit 8 of the generator clears bit 8 of the value. -/
theorem xor_generator {v : Nat} (hlow : 0x100 ≤ v) (hhigh : v < 0x200) : v ^^^ 0x107 = (v % 0x100) ^^^ 0x07 := by
  have hquot : (v ^^^ 0x107) / 2 ^ 8 = 0 := by
    rw [Nat.xor_div_two_pow, show v / 2 ^ 8 = 1 by omega]
    rfl
  calc v ^^^ 0x107 = (v ^^^ 0x107) % 2 ^ 8 := by omega
    _ = (v % 0x100) ^^^ 0x07 := by rw [Nat.xor_mod_two_pow]

theorem crcShift_toNat (x : Byte) : (crcShift x).toNat = nineBitShift x.toNat := by
  have hbit : x.getLsbD 7 = decide (0x80 ≤ x.toNat) := BitVec.msb_eq_decide x
  have hshift : (x <<< 1).toNat = 2 * x.toNat % 0x100 := by
    rw [BitVec.toNat_shiftLeft, Nat.shiftLeft_eq, Nat.mul_comm]
  unfold crcShift nineBitShift
  by_cases h : 0x80 ≤ x.toNat
  · rw [if_pos (hbit.trans (decide_eq_true h)), if_pos (by omega), BitVec.toNat_xor, hshift,
      xor_generator (by omega) (by omega)]
    rfl
  · rw [if_neg (by rw [hbit]; simpa using h), if_neg (by omega), hshift]
    omega

/-- Settles O7: `crcShift_toNat` for each of the eight steps, the table form by `crc8Step_table`. -/
theorem crcStepIsNineBitReduction : Obligations.CrcStepIsNineBitReduction := by
  intro r b nine
  have hnine : nine = nineBitShift := rfl
  clear_value nine
  refine ⟨?_, crc8Step_table r b⟩
  simp only [crc8Step, crcShifts, crcShift_toNat, BitVec.toNat_xor, hnine]

/-! ### Laws (a) to (e) (R139) -/

/-- Settles O8: linearity is `crc8From_xor` between two empty registers, the zero residue `crc8_concat` at the register's own
value. -/
theorem checksumLinearityAndResidue : Obligations.ChecksumLinearityAndResidue := by
  refine ⟨crc8_nil, fun s => ?_, fun a b hlen => ?_, crc8_append, fun s => ?_⟩
  · exact congrArg (crc8From · s) (crc8Step_self 0x00#8)
  · exact crc8From_xor 0x00#8 0x00#8 a b hlen
  · rw [crc8_concat, crc8Step_self]

/-! ### Law (g): bursts (R139) -/

theorem burst_lowByte (e : Byte) (k : Nat) : (e.zeroExtend 16 <<< k).truncate 8 = e <<< k := by
  ext i hi
  simp

theorem burst_highByte (e : Byte) {k : Nat} (hk : k ≤ 8) :
    ((e.zeroExtend 16 <<< k) >>> 8).truncate 8 = e >>> (8 - k) := by
  ext i hi
  simp only [BitVec.truncate_eq_setWidth, BitVec.getElem_setWidth, BitVec.getLsbD_ushiftRight,
    BitVec.getLsbD_shiftLeft, BitVec.getLsbD_setWidth, BitVec.getElem_ushiftRight]
  have hindex : 8 + i - k = 8 - k + i := by omega
  grind

theorem crcShift_of_small {x : Byte} (h : x >>> 7 = 0x00#8) : crcShift x = x <<< 1 := by
  have hbit : x.getLsbD 7 = false := by simpa using congrArg (·.getLsbD 0) h
  rw [crcShift, hbit, if_neg Bool.false_ne_true]

/-- A shift step is the shifted register and the bit that left it, reduced by the table. -/
theorem crcShift_split (x : Byte) : crcShift x = crcShifts 8 (x >>> 7) ^^^ x <<< 1 := by
  have hout : x >>> 7 = if x.getLsbD 7 then 0x01#8 else 0x00#8 := by
    ext i hi
    cases i with
    | zero => cases h : x.getLsbD 7 <;> simpa using h
    | succ i => cases x.getLsbD 7 <;> simp [BitVec.getLsbD_of_ge x (7 + (i + 1)) (by omega)]
  rw [crcShift, hout]
  cases x.getLsbD 7
  · exact (BitVec.zero_xor).symm
  · exact BitVec.xor_comm _ _

/-- The bits that have left the register after `k + 1` shifts: those after `k`, and the one that the next shift moves out. -/
theorem leavingBits_succ (e : Byte) {k : Nat} (hk : k < 8) :
    e >>> (8 - k) <<< 1 ^^^ e <<< k >>> 7 = e >>> (8 - (k + 1)) := by
  ext i hi
  simp only [BitVec.getElem_xor, BitVec.getElem_shiftLeft, BitVec.getElem_ushiftRight, BitVec.getLsbD_shiftLeft]
  grind

/-- `k` shift steps are the shifted byte and the bits that left it, reduced by the table. -/
theorem crcShifts_split (e : Byte) {k : Nat} (hk : k ≤ 8) :
    crcShifts k e = crcShifts 8 (e >>> (8 - k)) ^^^ e <<< k := by
  induction k with
  | zero =>
    have h : e >>> 8 = 0x00#8 := BitVec.ushiftRight_eq_zero (Nat.le_refl 8)
    rw [Nat.sub_zero, h, crcShifts_zero, BitVec.zero_xor, BitVec.shiftLeft_zero, crcShifts]
  | succ k ih =>
    have hsmall : e >>> (8 - k) >>> 7 = 0x00#8 := by
      rw [← BitVec.shiftRight_add]
      exact BitVec.ushiftRight_eq_zero (by omega)
    calc crcShifts (k + 1) e
        = crcShift (crcShifts k e) := by rw [Nat.add_comm, crcShifts_add]; rfl
      _ = crcShift (crcShifts 8 (e >>> (8 - k))) ^^^ crcShift (e <<< k) := by rw [ih (by omega), crcShift_xor]
      _ = crcShifts 8 (crcShift (e >>> (8 - k))) ^^^ crcShift (e <<< k) := rfl
      _ = crcShifts 8 (e >>> (8 - k) <<< 1) ^^^ (crcShifts 8 (e <<< k >>> 7) ^^^ e <<< k <<< 1) := by
        rw [crcShift_of_small hsmall, crcShift_split (e <<< k)]
      _ = crcShifts 8 (e >>> (8 - (k + 1))) ^^^ e <<< (k + 1) := by
        rw [← BitVec.xor_assoc, ← crcShifts_xor, leavingBits_succ e hk, BitVec.shiftLeft_add]

/-- Two steps that end alike differ in the register as they differ in the byte. -/
theorem xor_eq_of_crc8Step_eq {r r' b b' : Byte} (h : crc8Step r b = crc8Step r' b') : r ^^^ r' = b ^^^ b' :=
  crc8Step_eq_zero (by rw [crc8Step_xor, h, BitVec.xor_self])

theorem xor_xor_cancel (x d : Byte) : (x ^^^ d) ^^^ x = d := by
  rw [BitVec.xor_comm x d, BitVec.xor_assoc, BitVec.xor_self, BitVec.xor_zero]

/-- Changes of two neighbouring bytes that the checksum does not show: the second is the table entry of the first. -/
theorem table_eq_of_crc8_eq {front back : List Byte} {b c d d' : Byte}
    (h : crc8 (front ++ (b ^^^ d) :: (c ^^^ d') :: back) = crc8 (front ++ b :: c :: back)) :
    crc8Step 0x00#8 d = d' := by
  simp only [crc8_append, crc8From_cons] at h
  have hsecond := xor_eq_of_crc8Step_eq (crc8From_injective back h)
  rwa [← crc8Step_xor, BitVec.xor_self, xor_xor_cancel, xor_xor_cancel] at hsecond

/-- Settles O9: a change within one byte by `crc8_changed_byte`; a burst that did not show would be a nonzero byte that `k`
shift steps make zero (`crcShifts_split`). -/
theorem checksumDetectsBursts : Obligations.ChecksumDetectsBursts := by
  constructor
  · intro front back b e he
    exact crc8_changed_byte front back (by simpa using he)
  · intro front back b c e k he hk burst h
    have htable := table_eq_of_crc8_eq h
    rw [burst_lowByte, burst_highByte e hk.le, crc8Step, BitVec.zero_xor] at htable
    exact he (crcShifts_eq_zero hk.le (by rw [crcShifts_split e hk.le, htable, BitVec.xor_self]))

end Sys2Proof.Machine
end

section
/-! Every step keeps the invariant (R158, R34 to R40, R193, R200, R303, R307): what it says whatever the phase is, what each
phase adds, and that the sequencer, the operations and the other inputs keep both. -/

namespace Sys2Proof.Machine

open Sys2Proof

/-! ### What the invariant says in every phase, and what a phase adds -/

/-- The elements that the invariant bounds whatever the phase is. -/
def State.dataView (s : State) : Accumulator × Memory × Nat × Nat × Option Frame × Bool × Option PortName :=
  (s.dec, s.txBuf, s.txIdx, s.rxNacks, s.result, s.claimed, s.handle)

/-- The elements by which a phase adds to it. -/
def State.phaseView (s : State) : Phase × Bool × Option Byte := (s.phase, s.portOpen, s.invoke)

/-- The clauses of `State.Inv` that name no phase. -/
structure State.DataInv (s : State) : Prop where
  dec : s.dec.Inv
  txBuf_frame : s.txBuf = [] ∨ wellFormedFrame s.txBuf
  txIdx_le : s.txIdx ≤ s.txLen
  nacks_le : s.rxNacks ≤ 1
  result_fits : ∀ f, s.result = some f → f.payload.length ≤ 255
  handle_claimed : s.handle.isSome = s.claimed

section
variable {s t : State}

theorem State.Inv.data (h : s.Inv) : s.DataInv :=
  ⟨h.dec, h.txBuf_frame, h.txIdx_le, h.nacks_le, h.result_fits, h.handle_claimed⟩

/-- A state that differs in none of the bounded elements meets the same clauses. -/
theorem State.DataInv.congr (h : s.DataInv) (e : t.dataView = s.dataView := by rfl) : t.DataInv := by
  cases s
  cases t
  simp only [dataView, Prod.mk.injEq] at e
  obtain ⟨rfl, rfl, rfl, rfl, rfl, rfl, rfl⟩ := e
  exact ⟨h.dec, h.txBuf_frame, h.txIdx_le, h.nacks_le, h.result_fits, h.handle_claimed⟩

theorem State.Inv.congr (h : s.Inv) (e : t.dataView = s.dataView := by rfl)
    (e' : t.phaseView = s.phaseView := by rfl) : t.Inv := by
  cases s
  cases t
  simp only [dataView, phaseView, Prod.mk.injEq] at e e'
  obtain ⟨rfl, rfl, rfl, rfl, rfl, rfl, rfl⟩ := e
  obtain ⟨rfl, rfl, rfl⟩ := e'
  exact ⟨h.dec, h.txBuf_frame, h.txIdx_le, h.tx_more, h.rxWait_open, h.rxReply_judged, h.nacks_le, h.result_fits,
    h.transfer_claimed, h.handle_claimed, h.invoke_busy⟩

/-- `IDLE` adds that no invocation is in progress. -/
theorem State.DataInv.idle (h : s.DataInv) (hp : s.phase = .idle) (hinv : s.invoke = none) : s.Inv where
  dec := h.dec
  txBuf_frame := h.txBuf_frame
  txIdx_le := h.txIdx_le
  tx_more := by simp [hp]
  rxWait_open := by simp [hp]
  rxReply_judged := by simp [hp]
  nacks_le := h.nacks_le
  result_fits := h.result_fits
  transfer_claimed := fun hbusy => absurd hp hbusy
  handle_claimed := h.handle_claimed
  invoke_busy := fun _ => hinv

/-- The sending phases add that there is a byte to send. -/
theorem State.DataInv.sending (h : s.DataInv) (hp : s.phase = .txWrite ∨ s.phase = .txWait)
    (hmore : s.txIdx < s.txLen) (hport : s.portOpen = true → s.claimed = true) : s.Inv where
  dec := h.dec
  txBuf_frame := h.txBuf_frame
  txIdx_le := h.txIdx_le
  tx_more := fun _ => hmore
  rxWait_open := by rcases hp with hp | hp <;> simp [hp]
  rxReply_judged := by rcases hp with hp | hp <;> simp [hp]
  nacks_le := h.nacks_le
  result_fits := h.result_fits
  transfer_claimed := fun _ => hport
  handle_claimed := h.handle_claimed
  invoke_busy := by rcases hp with hp | hp <;> simp [hp]

/-- `RX_WAIT` adds that the frame is incomplete and nothing was rejected. -/
theorem State.DataInv.rxWait (h : s.DataInv) (hp : s.phase = .rxWait) (hst : s.dec.st = .incomplete)
    (hnacks : s.rxNacks = 0) (hport : s.portOpen = true → s.claimed = true) : s.Inv where
  dec := h.dec
  txBuf_frame := h.txBuf_frame
  txIdx_le := h.txIdx_le
  tx_more := by simp [hp]
  rxWait_open := fun _ => ⟨hst, hnacks⟩
  rxReply_judged := by simp [hp]
  nacks_le := h.nacks_le
  result_fits := h.result_fits
  transfer_claimed := fun _ => hport
  handle_claimed := h.handle_claimed
  invoke_busy := by simp [hp]

/-- `RX_REPLY` adds that the byte to acknowledge was just pushed on an open accumulator. -/
theorem State.DataInv.rxReply {a : Accumulator} {b : Byte} (h : s.DataInv) (hp : s.phase = .rxReply)
    (hdec : s.dec = a.push b) (hst : a.st = .incomplete) (hnacks : s.rxNacks = 0)
    (hport : s.portOpen = true → s.claimed = true) : s.Inv where
  dec := h.dec
  txBuf_frame := h.txBuf_frame
  txIdx_le := h.txIdx_le
  tx_more := by simp [hp]
  rxWait_open := by simp [hp]
  rxReply_judged := fun _ => ⟨hnacks, by rw [hdec]; exact push_exp_iff b hst, by rw [hdec]; exact push_exp_stored b⟩
  nacks_le := h.nacks_le
  result_fits := h.result_fits
  transfer_claimed := fun _ => hport
  handle_claimed := h.handle_claimed
  invoke_busy := by simp [hp]

/-- In a phase that uses a transfer buffer, an open port is a claimed one (R303, R307). -/
theorem State.Inv.port_claimed {p : Phase} (h : s.Inv) (hp : s.phase = p) (hbusy : p ≠ .idle) :
    s.portOpen = true → s.claimed = true :=
  h.transfer_claimed (hp ▸ hbusy)

/-! ### One element written -/

/-- Outside a reception `DEC.*` may be written freely (R308). -/
theorem State.Inv.with_dec {a : Accumulator} (h : s.Inv) (ha : a.Inv) (hwait : s.phase ≠ .rxWait)
    (hreply : s.phase ≠ .rxReply) : State.Inv { s with dec := a } where
  dec := ha
  txBuf_frame := h.txBuf_frame
  txIdx_le := h.txIdx_le
  tx_more := h.tx_more
  rxWait_open := fun hp => absurd hp hwait
  rxReply_judged := fun hp => absurd hp hreply
  nacks_le := h.nacks_le
  result_fits := h.result_fits
  transfer_claimed := h.transfer_claimed
  handle_claimed := h.handle_claimed
  invoke_busy := h.invoke_busy

/-- The port may be claimed, given back or closed, so long as no transfer is left over an open port without a claim. -/
theorem State.Inv.with_port {claimed portOpen : Bool} {handle : Option PortName} (h : s.Inv)
    (hhandle : handle.isSome = claimed) (hport : s.phase ≠ .idle → portOpen = true → claimed = true) :
    State.Inv { s with claimed := claimed, handle := handle, portOpen := portOpen } where
  dec := h.dec
  txBuf_frame := h.txBuf_frame
  txIdx_le := h.txIdx_le
  tx_more := h.tx_more
  rxWait_open := h.rxWait_open
  rxReply_judged := h.rxReply_judged
  nacks_le := h.nacks_le
  result_fits := h.result_fits
  transfer_claimed := hport
  handle_claimed := hhandle
  invoke_busy := h.invoke_busy

/-- From no NACK, counting one leaves at most one (R200). -/
theorem countNack_dataInv (h : s.DataInv) (hnacks : s.rxNacks = 0) : (countNack s).DataInv where
  dec := h.dec
  txBuf_frame := h.txBuf_frame
  txIdx_le := h.txIdx_le
  nacks_le := by
    simp only [countNack_rxNacks, hnacks]
    split <;> decide
  result_fits := h.result_fits
  handle_claimed := h.handle_claimed

/-! ### A transfer begins and ends -/

theorem takeFailure_inv (h : s.DataInv) (st : Status) (d : Diag) : (takeFailure st d s).Inv :=
  State.DataInv.idle
    { dec := h.dec
      txBuf_frame := h.txBuf_frame
      txIdx_le := h.txIdx_le
      nacks_le := h.nacks_le
      result_fits := fun f hf => by
        rw [takeFailure_result] at hf
        split at hf
        · cases hf
        · exact h.result_fits f hf
      handle_claimed := h.handle_claimed } rfl rfl

theorem takeSuccess_inv (h : s.DataInv) (e : Ending) : (takeSuccess e s).Inv := h.congr.idle rfl rfl

theorem respond_inv (h : s.DataInv) (kind : Byte) (f : Frame) : (respond kind f s).Inv :=
  h.congr.idle rfl rfl

theorem startSend_inv {f : List Byte} (h : s.DataInv) (hf : wellFormedFrame f)
    (hport : s.portOpen = true → s.claimed = true) : (startSend f s).Inv := by
  obtain ⟨hfour, -⟩ := wellFormedFrame_length hf
  exact State.DataInv.sending
    { dec := h.dec
      txBuf_frame := .inr hf
      txIdx_le := Nat.zero_le _
      nacks_le := h.nacks_le
      result_fits := h.result_fits
      handle_claimed := h.handle_claimed } (.inl rfl) (show 0 < f.length by omega) hport

theorem startRecv_inv (h : s.DataInv) (hport : s.portOpen = true → s.claimed = true) : (startRecv s).Inv :=
  State.DataInv.rxWait
    { dec := empty_inv
      txBuf_frame := h.txBuf_frame
      txIdx_le := h.txIdx_le
      nacks_le := Nat.zero_le 1
      result_fits := by rintro f ⟨⟩
      handle_claimed := h.handle_claimed } rfl rfl rfl hport

/-- `RESULT.LEN` is 0..255 because `length` is one byte (R39). -/
theorem frameIn_payload_le {buf : Memory} {f : Frame} (h : frameIn buf = some f) : f.payload.length ≤ 255 := by
  unfold frameIn at h
  split at h
  next len kind tail =>
    split at h
    · cases h
    · obtain rfl := Option.some.inj h
      have := len.isLt
      simp only [List.length_take]
      omega
  next => cases h

theorem recvDone_inv {f : Frame} (h : s.DataInv) (hf : f.payload.length ≤ 255) : (recvDone f s).Inv := by
  have hlatched : State.DataInv { s with result := some f } :=
    { dec := h.dec
      txBuf_frame := h.txBuf_frame
      txIdx_le := h.txIdx_le
      nacks_le := h.nacks_le
      result_fits := by rintro _ ⟨⟩; exact hf
      handle_claimed := h.handle_claimed }
  cases hi : s.invoke with
  | none => rw [recvDone_none f hi]; exact takeSuccess_inv hlatched _
  | some kind => rw [recvDone_some f hi]; exact respond_inv hlatched kind f

theorem verdictFailure_inv (h : s.DataInv) (own : Status) : (verdictFailure own s).Inv := by
  obtain ⟨st, n, e, -⟩ := verdictFailure_cases own s
  rw [e]
  exact takeFailure_inv h.congr st .none

/-! ### The sequencer -/

theorem stepTxWrite_inv (h : s.Inv) (hp : s.phase = .txWrite) (ht : stepTxWrite s = .next t) : t.Inv := by
  obtain ⟨b, -, ⟨-, rfl⟩ | ⟨-, rfl⟩⟩ := stepTxWrite_next ht
  · exact State.DataInv.sending h.data.congr (.inr rfl) (h.tx_more (.inl hp)) (h.port_claimed hp (by decide))
  · exact takeFailure_inv h.data.congr _ _

/-- R188: below `TX.LEN` the next byte is sent, at `TX.LEN` the send ends. -/
theorem acked_inv (h : s.DataInv) (hmore : s.txIdx < s.txLen) (hport : s.portOpen = true → s.claimed = true) :
    (acked s).Inv := by
  have hnext : State.DataInv { s with txIdx := s.txIdx + 1 } :=
    ⟨h.dec, h.txBuf_frame, hmore, h.nacks_le, h.result_fits, h.handle_claimed⟩
  rcases acked_cases s with ⟨hne, e⟩ | ⟨-, -, e⟩ | ⟨k, -, -, e⟩ <;> rw [e]
  · exact State.DataInv.sending hnext.congr (.inl rfl) (Nat.lt_of_le_of_ne hmore hne) hport
  · exact takeSuccess_inv hnext _
  · exact startRecv_inv hnext.congr hport

theorem stepTxWait_inv (h : s.Inv) (hp : s.phase = .txWait) (ht : stepTxWait s = .next t) : t.Inv := by
  rcases stepTxWait_cases s with ⟨r, -, -, e⟩ | ⟨d, -, e, -⟩ <;> rw [e] at ht <;>
      obtain rfl := Host.Outcome.next.inj ht
  · exact acked_inv h.data.congr (h.tx_more (.inr hp)) (h.port_claimed hp (by decide))
  · exact takeFailure_inv h.data.congr _ _

theorem stepRxWait_inv (h : s.Inv) (hp : s.phase = .rxWait) (ht : stepRxWait s = .next t) : t.Inv := by
  obtain ⟨hst, hnacks⟩ := h.rxWait_open hp
  rcases stepRxWait_cases s with ⟨b, r, -, -, e⟩ | ⟨d, -, e⟩ <;> rw [e] at ht <;>
      obtain rfl := Host.Outcome.next.inj ht
  · exact State.DataInv.rxReply
      ⟨push_inv b h.dec, h.txBuf_frame, h.txIdx_le, h.nacks_le, h.result_fits, h.handle_claimed⟩
      rfl rfl hst hnacks (h.port_claimed hp (by decide))
  · exact takeFailure_inv h.data.congr _ _

theorem afterReply_inv (h : s.DataInv) (hnacks : s.dec.st = .incomplete → s.rxNacks = 0)
    (hport : s.portOpen = true → s.claimed = true) (ht : afterReply s = .next t) : t.Inv := by
  rcases afterReply_next ht with ⟨hst, rfl⟩ | ⟨-, rfl⟩ | ⟨-, rfl⟩ | ⟨f, -, hf, rfl⟩
  · exact State.DataInv.rxWait h.congr rfl hst (hnacks hst) hport
  · exact verdictFailure_inv h _
  · exact verdictFailure_inv h _
  · exact recvDone_inv h (frameIn_payload_le hf)

theorem stepRxReply_inv (h : s.Inv) (hp : s.phase = .rxReply) (ht : stepRxReply s = .next t) : t.Inv := by
  obtain ⟨hnacks, hexp, -⟩ := h.rxReply_judged hp
  have hcounted : (countNack s).DataInv := countNack_dataInv h.data hnacks
  rcases stepRxReply_next ht with ⟨-, hr⟩ | ⟨-, rfl⟩
  · refine afterReply_inv (s := afterWrite _ (countNack s)) hcounted.congr (fun hst => ?_)
      (h.port_claimed hp (by decide)) hr
    replace hst : s.dec.st = .incomplete := hst
    have hack : ackByte s.params s.dec = Config.ack := ackByte_of_open (hexp.mpr (by simp [hst])) (by simp [hst])
    simp [hack, ack_ne_nack, hnacks]
  · exact takeFailure_inv hcounted.congr _ _

theorem sequence_inv (h : s.Inv) (ht : sequence s = .next t) : t.Inv := by
  cases hp : s.phase with
  | idle => rw [sequence_idle hp] at ht; obtain rfl := Host.Outcome.next.inj ht; exact h
  | txWrite => rw [sequence_txWrite hp] at ht; exact stepTxWrite_inv h hp ht
  | txWait => rw [sequence_txWait hp] at ht; exact stepTxWait_inv h hp ht
  | rxWait => rw [sequence_rxWait hp] at ht; exact stepRxWait_inv h hp ht
  | rxReply => rw [sequence_rxReply hp] at ht; exact stepRxReply_inv h hp ht

/-! ### The operations -/

/-- R150: `ENCODE` succeeds on payloads that fit, and on no others. -/
theorem encodeFrame_eq_ok {kind : Byte} {payload f : List Byte} (h : encodeFrame kind payload = .ok f) :
    payload.length ≤ 255 ∧ f = frameBytes kind payload := by
  by_cases hl : payload.length ≤ 255
  · rw [encodeFrame_ok hl] at h
    exact ⟨hl, (Except.ok.inj h).symm⟩
  · rw [encodeFrame_error (Nat.lt_of_not_le hl)] at h
    cases h

theorem invokeStart_inv (kind : Byte) (args : Args) (h : s.Inv) (hclaimed : s.claimed = true) :
    (invokeStart kind args s).Inv := by
  rcases invokeStart_cases kind args s with ⟨st, d, e, -⟩ | ⟨payload, -, hl, -, -, e⟩ <;> rw [e]
  · exact takeFailure_inv h.data.congr st d
  · exact startSend_inv h.data.congr (frameBytes_wellFormed kind hl) fun _ => hclaimed

/-- R231, R235: in `IDLE` a claim that succeeds brings its handle, and one that fails leaves the port as it was. -/
theorem claimPort_inv (found : Option PortName) (h : s.Inv) (hp : s.phase = .idle) : (claimPort found s).Inv := by
  have hhandle : (found.orElse fun _ => s.handle).isSome = (found.isSome || s.claimed) := by
    cases found with
    | none => exact h.handle_claimed
    | some name => rfl
  exact (h.with_port hhandle fun hbusy => absurd hp hbusy).congr

theorem exec_inv {i : Instr} (h : s.Inv) (ht : exec i s = .next t) : t.Inv := by
  cases i with
  | crcClr | crcUpd _ | crcRd | checksum _ | encode _ _ | decode _ | frame _ _ _ | ack | nack
  | frameGetLowPowerEnable _ _ | frameGetDi _ _ =>
    obtain rfl := Host.Outcome.next.inj ht
    exact h.congr
  | reservedE | reservedF => cases ht
  | decRst =>
    simp only [exec, execDecRst] at ht
    split at ht
    next => cases ht
    next hr =>
      obtain rfl := Host.Outcome.next.inj ht
      obtain ⟨hwait, hreply⟩ := accumulatorRefusal_eq_none.mp hr
      exact (h.with_dec empty_inv hwait hreply).congr
  | decPush b =>
    simp only [exec, execDecPush] at ht
    split at ht
    next => cases ht
    next hr =>
      obtain rfl := Host.Outcome.next.inj ht
      obtain ⟨hwait, hreply⟩ := accumulatorRefusal_eq_none.mp hr
      exact (h.with_dec (push_inv b h.dec) hwait hreply).congr
  | decQry =>
    simp only [exec, execDecQry] at ht
    split at ht
    · split at ht
      · cases ht
      · obtain rfl := Host.Outcome.next.inj ht
        exact h.congr
    · obtain rfl := Host.Outcome.next.inj ht
      exact h.congr
  | sendFrame kind payload =>
    simp only [exec, execSendFrame] at ht
    split at ht
    next => cases ht
    next hr =>
      obtain ⟨-, hclaimed⟩ := transferRefusal_eq_none.mp hr
      split at ht <;> obtain rfl := Host.Outcome.next.inj ht
      next => exact h.congr
      next hf =>
        obtain ⟨hl, rfl⟩ := encodeFrame_eq_ok hf
        exact startSend_inv h.data (frameBytes_wellFormed kind hl) fun _ => hclaimed
  | recvFrame =>
    simp only [exec, execRecvFrame] at ht
    split at ht
    next => cases ht
    next hr =>
      obtain rfl := Host.Outcome.next.inj ht
      obtain ⟨-, hclaimed⟩ := transferRefusal_eq_none.mp hr
      exact startRecv_inv h.data fun _ => hclaimed
  | invoke kind args =>
    simp only [exec, execInvoke] at ht
    split at ht
    next => cases ht
    next hr =>
      obtain rfl := Host.Outcome.next.inj ht
      obtain ⟨-, hclaimed⟩ := transferRefusal_eq_none.mp hr
      exact invokeStart_inv kind args h hclaimed
  | claim port =>
    simp only [exec, execClaim] at ht
    split at ht
    next => cases ht
    next hr =>
      obtain rfl := Host.Outcome.next.inj ht
      exact claimPort_inv _ h (busyRefusal_eq_none.mp hr)
  | release =>
    obtain rfl := Host.Outcome.next.inj ht
    exact (h.with_port (handle := none) rfl fun _ hopen => absurd hopen Bool.false_ne_true).congr

/-! ### The inputs -/

theorem present_inv {p : Presented} (h : s.Inv) (ht : present p s = .next t) : t.Inv := by
  unfold present at ht
  split at ht
  · exact exec_inv h ht
  · cases p with
    | op r => cases ht
    | wire bytes =>
      obtain rfl := Host.Outcome.next.inj ht
      exact h.congr

theorem takeInput_inv {i : Input} (h : s.Inv) (ht : takeInput i s = .next t) : t.Inv := by
  cases i with
  | present p => exact present_inv h ht
  | run => exact sequence_inv h ht
  | link _ _ =>
    obtain rfl := Host.Outcome.next.inj ht
    exact h.congr
  | closePort =>
    obtain rfl := Host.Outcome.next.inj ht
    exact h.with_port h.handle_claimed fun _ hopen => absurd hopen Bool.false_ne_true
  | reset =>
    obtain rfl := Host.Outcome.next.inj ht
    exact State.DataInv.idle resetMeetsTheInvariant.data.congr rfl rfl

end

/-- Settles O49: the step is the sequencer's (`sequence_inv`) or takes an input (`takeInput_inv`). -/
theorem stepKeepsTheInvariant : Obligations.StepKeepsTheInvariant := by
  intro s t h ht
  cases hi : s.inputs with
  | nil => rw [step_nil hi] at ht; exact sequence_inv h ht
  | cons i rest => rw [step_cons hi] at ht; exact takeInput_inv (h.with_inputs rest) ht

end Sys2Proof.Machine
end

section
/-! The Frame Codec (R150 to R168): what each of its operations answers, that `DECODE` inverts `ENCODE` and agrees with
the accumulator, and what it says of a frame cut short or with a changed byte. -/

namespace Sys2Proof.Machine

open Sys2Proof

/-! ### ENCODE -/

/-- Settles O10: `encodeFrame` on either side of the limit of 255 bytes. -/
theorem encodeBuildsTheFrame : Obligations.EncodeBuildsTheFrame := by
  refine fun kind payload s => ⟨rfl, ?_⟩
  rw [exec, execEncode]
  by_cases h : 255 < payload.length
  · rw [encodeFrame_error h, if_pos h]
    rfl
  · rw [encodeFrame_ok (Nat.le_of_not_lt h), if_neg h]
    rfl

theorem frameBytes_injective {k k' : Byte} {p p' : List Byte} (h : frameBytes k p = frameBytes k' p') :
    k = k' ∧ p = p' := by
  rw [frameBytes_eq, frameBytes_eq] at h
  simp only [List.cons.injEq] at h
  obtain ⟨-, -, -, hk, hp⟩ := h
  exact ⟨hk, hp⟩

/-- Settles O11: whatever `ENCODE` returns is `frameBytes` of a payload that fits (`encodeFrame_eq_ok`). -/
theorem encodedFramesAreWellFormedAndDistinct : Obligations.EncodedFramesAreWellFormedAndDistinct := by
  refine ⟨fun kind payload f h => ?_, fun k k' p p' f h h' => ?_⟩
  · obtain ⟨hl, rfl⟩ := encodeFrame_eq_ok h
    exact ⟨frameBytes_length kind payload, frameBytes_wellFormed kind hl⟩
  · obtain ⟨-, rfl⟩ := encodeFrame_eq_ok h
    obtain ⟨-, he⟩ := encodeFrame_eq_ok h'
    exact frameBytes_injective he

theorem decodeFrame_of_encoded (k : Byte) {p : List Byte} (h : p.length ≤ 255) :
    decodeFrame (frameBytes k p) = .ok ⟨k, p⟩ := by
  simpa using decodeFrame_frameBytes k h []

/-- Settles O12: `ENCODE` returns `frameBytes kind payload`, and `decodeFrame_of_encoded` reads it back. -/
theorem decodeInvertsEncode : Obligations.DecodeInvertsEncode := by
  intro kind payload h s
  refine ⟨frameBytes kind payload, ?_, ?_⟩
  · rw [exec, execEncode, encodeFrame_ok h]
    rfl
  · rw [exec, execDecode, decodeFrame_of_encoded kind h]
    rfl

/-! ### The accumulator's operations -/

/-- Settles O13: outside a reception `DEC_RST` is not refused. -/
theorem decRstEmptiesTheAccumulator : Obligations.DecRstEmptiesTheAccumulator := by
  refine fun s => ⟨rfl, fun hwait hreply => ?_⟩
  rw [exec, execDecRst, accumulatorRefusal_eq_none.mpr ⟨hwait, hreply⟩]
  rfl

/-- R156 (c): the last declared byte is judged by the running checksum. -/
theorem bufferVerdict_last {a : Accumulator} {len : Byte} (hl : a.buf[2]? = some len) (hn : a.n = 4 + len.toNat) :
    bufferVerdict a = if a.buf[1]? = some a.crc then .complete else .crcError := by
  rcases bufferVerdict_cases a with ⟨-, h4 | hno⟩ | ⟨-, -, -, ⟨hv, hc⟩ | ⟨hv, hc⟩⟩
  · omega
  · exact absurd hn (hno len hl)
  · rw [hv, if_pos hc]
  · rw [hv, if_neg hc]

/-- R156: before the last declared byte there is no verdict. -/
theorem bufferVerdict_early {a : Accumulator} (h : a.n < 4 ∨ ∀ len, a.buf[2]? = some len → a.n ≠ 4 + len.toNat) :
    bufferVerdict a = .incomplete := by
  rcases bufferVerdict_cases a with ⟨hv, -⟩ | ⟨len, hl, hn, -⟩
  · exact hv
  · rcases h with h4 | hno
    · omega
    · exact absurd hn (hno len hl)

/-- Settles O14, branch by branch: `push_terminal`, `push_wrongStart`, `push_start`, `push_later`. -/
theorem decPushFollowsItsPseudocode : Obligations.DecPushFollowsItsPseudocode := by
  intro b s hwait hreply
  refine ⟨s.dec.push b, ?_, rfl, push_terminal b, push_wrongStart, ?_, fun hst hn => ?_⟩
  · rw [exec, execDecPush, accumulatorRefusal_eq_none.mpr ⟨hwait, hreply⟩]
    rfl
  · rintro hst hn rfl
    exact push_start hst hn
  · rw [push_later b hst hn]
    exact ⟨rfl, rfl, rfl, fun len _ => bufferVerdict_last, bufferVerdict_early⟩

theorem execDecQry_open {s : State} (h : s.dec.st ≠ .complete) :
    execDecQry s = .next (endWith (.query s.dec.st none) s) := by
  unfold execDecQry
  cases hst : s.dec.st with
  | complete => exact absurd hst h
  | incomplete | sofError | crcError => rfl

theorem execDecQry_complete {s : State} (h : s.dec.st = .complete) :
    execDecQry s = (frameIn s.dec.buf).elim (.fault (.noValue .decBuf))
      fun f => .next (endWith (.query .complete (some f)) s) := by
  rw [execDecQry, h]
  cases frameIn s.dec.buf <;> rfl

theorem frameIn_header (start crc len kind : Byte) (tail : List Byte) :
    frameIn (start :: crc :: len :: kind :: tail) =
      if tail.length < len.toNat then none else some ⟨kind, tail.take len.toNat⟩ := rfl

theorem frameIn_short {buf : Memory} (h : buf.length < 4) : frameIn buf = none := by
  match buf with
  | [] | [_] | [_, _] | [_, _, _] => rfl
  | _ :: _ :: _ :: _ :: _ => simp at h; omega

/-- Settles O15: the verdict alone (`execDecQry_open`), or what `frameIn` finds (`execDecQry_complete`). -/
theorem decQryReturnsVerdictAndFrame : Obligations.DecQryReturnsVerdictAndFrame := by
  refine fun s => ⟨rfl, execDecQry_open, fun start crc len kind tail hst hbuf => ?_, fun hst hn => ?_⟩
  · rw [exec, execDecQry_complete hst, hbuf, frameIn_header]
    split <;> rfl
  · rw [exec, execDecQry_complete hst, frameIn_short hn]
    rfl

/-! ### DECODE -/

/-- R162: a right start and fewer bytes than `length` declares, or too few to declare any. -/
theorem decodeFrame_partial {bs : List Byte} (hs : bs[0]? = some Config.sof)
    (h : bs.length < 3 ∨ ∃ len, bs[2]? = some len ∧ bs.length < 4 + len.toNat) :
    decodeFrame bs = .error .partialFrameError := by
  by_cases h4 : bs.length < 4
  · exact decodeFrame_short h4 fun b hb => Option.some.inj (hb.symm.trans hs)
  · obtain ⟨s, c, l, k, t, rfl⟩ := exists_header (Nat.le_of_not_lt h4)
    obtain rfl := Option.some.inj hs
    rcases h with h3 | ⟨len, hl, hlt⟩
    · omega
    · obtain rfl := Option.some.inj hl
      simp only [List.length_cons] at hlt
      rw [decodeFrame_header, if_pos (by omega)]

/-- R160: a whole frame is judged by its checksum. -/
theorem decodeFrame_full {bs : List Byte} {len crc kind : Byte} (hs : bs[0]? = some Config.sof) (hc : bs[1]? = some crc)
    (hl : bs[2]? = some len) (hk : bs[3]? = some kind) (h : 4 + len.toNat ≤ bs.length) :
    decodeFrame bs = if crc8 ((bs.drop 2).take (2 + len.toNat)) ≠ crc then .error .crcError
      else .ok ⟨kind, (bs.drop 4).take len.toNat⟩ := by
  obtain ⟨s, c, l, k, t, rfl⟩ := exists_header (Nat.le_of_add_right_le h)
  obtain rfl := Option.some.inj hs
  obtain rfl := Option.some.inj hc
  obtain rfl := Option.some.inj hl
  obtain rfl := Option.some.inj hk
  simp only [List.length_cons] at h
  rw [decodeFrame_header, if_neg (by omega), Nat.add_comm 2]
  rfl

/-- Settles O16: start byte, completeness and checksum, each by the lemma that says what `decodeFrame` answers there. -/
theorem decodeJudgesInOrder : Obligations.DecodeJudgesInOrder := by
  refine fun bs s => ⟨rfl, decodeEnding (decodeFrame bs), rfl, ?_, fun b hb hne => ?_, fun hs h3 => ?_,
    fun len hs hl hlt => ?_, fun len crc kind hs hl hfull hc hk => ?_⟩
  · rintro rfl
    rfl
  · obtain ⟨later, rfl⟩ : ∃ later, bs = b :: later := List.head?_eq_some_iff.mp (List.head?_eq_getElem?.trans hb)
    rw [decodeFrame_wrongStart later hne]
    rfl
  · rw [decodeFrame_partial hs (.inl h3)]
    rfl
  · rw [decodeFrame_partial hs (.inr ⟨len, hl, hlt⟩)]
    rfl
  · rw [decodeFrame_full hs hc hl hk hfull]
    split <;> rfl

/-- What it is for a verdict of the accumulator and an answer of `DECODE` to say the same (R164). -/
def Accumulator.Agrees (a : Accumulator) (d : Except CodecError Frame) : Prop :=
  match a.st with
  | .complete => ∃ f, frameIn a.buf = some f ∧ d = .ok f
  | .sofError => d = .error .sofError
  | .crcError => d = .error .crcError
  | .incomplete => d = .error .partialFrameError

theorem pushAll_terminal {a : Accumulator} (bs : List Byte) (h : a.st ≠ .incomplete) : a.pushAll bs = a := by
  cases bs with
  | nil => rfl
  | cons b bs => exact if_pos h

theorem pushAll_cons {a : Accumulator} (b : Byte) (bs : List Byte) (h : a.st = .incomplete) :
    a.pushAll (b :: bs) = (a.push b).pushAll bs := if_neg (not_not_intro h)

/-- From an accumulator that waits for more, pushing bytes says what `DECODE` says of the stored bytes and these. -/
theorem pushAll_agrees {a : Accumulator} (h : a.Inv) (hi : a.st = .incomplete) (bs : List Byte) :
    (a.pushAll bs).Agrees (decodeFrame (a.buf ++ bs)) := by
  induction bs generalizing a with
  | nil =>
    obtain ⟨hpartial, -⟩ := decodeFrame_of_inv h
    simpa [Accumulator.Agrees, Accumulator.pushAll, hi] using hpartial hi
  | cons b bs ih =>
    rw [pushAll_cons b bs hi]
    have hinv : (a.push b).Inv := push_inv b h
    rcases push_open b hi with ⟨hsof, -, hbuf, hb⟩ | ⟨hne, -, hbuf⟩
    · rw [pushAll_terminal bs (by simp [hsof]), hbuf, List.nil_append, decodeFrame_wrongStart bs hb]
      simp [Accumulator.Agrees, hsof]
    · rw [List.append_cons, ← hbuf]
      obtain ⟨-, hcomplete, hcrc⟩ := decodeFrame_of_inv hinv
      cases hst : (a.push b).st with
      | incomplete => exact ih hinv hst
      | complete =>
        obtain ⟨f, hf, -, hd⟩ := hcomplete hst
        rw [pushAll_terminal bs (by simp [hst]), hd bs]
        simp [Accumulator.Agrees, hst, hf]
      | crcError =>
        rw [pushAll_terminal bs (by simp [hst]), hcrc hst bs]
        simp [Accumulator.Agrees, hst]
      | sofError => exact absurd hst hne

/-- Settles O17: `pushAll_agrees` from the empty accumulator. -/
theorem decodeAgreesWithTheAccumulator : Obligations.DecodeAgreesWithTheAccumulator :=
  pushAll_agrees empty_inv rfl

/-! ### Frames cut short or changed -/

/-- Settles O18: a beginning of a frame has its start byte and, from the third byte on, its `length`. -/
theorem truncatedIsIncompleteNeverInvalid : Obligations.TruncatedIsIncompleteNeverInvalid := by
  refine ⟨fun kind payload n hp hn => ?_, fun b later hb => decodeFrame_wrongStart later hb⟩
  have hlen : ((frameBytes kind payload).take n).length = n := by simp; omega
  cases n with
  | zero => rfl
  | succ n =>
    refine decodeFrame_partial rfl ?_
    by_cases h3 : n + 1 < 3
    · exact .inl (by omega)
    · refine .inr ⟨lenByte payload, ?_, by rw [lenByte_toNat hp]; omega⟩
      rw [List.getElem?_take_of_lt (by omega)]
      rfl

/-- A flipped bit is a changed byte. -/
theorem flip_ne (b : Byte) {j : Nat} (hj : j < 8) : b ^^^ (1#8 <<< j) ≠ b := by
  intro h
  have hbit : (b ^^^ (1#8 <<< j)).getLsbD j = b.getLsbD j := by rw [h]
  simp [hj] at hbit

theorem crc8_set_ne {bs : List Byte} {i : Nat} {b c : Byte} (hb : bs[i]? = some b) (hc : c ≠ b) :
    crc8 (bs.set i c) ≠ crc8 bs := by
  obtain ⟨hi, rfl⟩ := List.getElem?_eq_some_iff.mp hb
  have hsplit : bs = bs.take i ++ bs[i] :: bs.drop (i + 1) := by simp
  rw [List.set_eq_take_append_cons_drop, if_pos hi]
  conv_rhs => rw [hsplit]
  exact crc8_changed_byte _ _ hc

/-- R160: with the start byte and all bytes there, a checksum byte that is not the checksum is `CrcError`. -/
theorem decodeFrame_wrongCrc {c l k : Byte} {t : List Byte} (ht : t.length = l.toNat) (hc : crc8 (l :: k :: t) ≠ c) :
    decodeFrame (Config.sof :: c :: l :: k :: t) = .error .crcError := by
  rw [decodeFrame_header, if_neg (by omega), ← ht, List.take_length, if_pos hc]

/-- R167 (b): a changed checksum byte. -/
theorem decodeFrame_changed_crc {kind c : Byte} {payload : List Byte} (hp : payload.length ≤ 255)
    (hc : c ≠ crc8 (lenByte payload :: kind :: payload)) :
    decodeFrame ((frameBytes kind payload).set 1 c) = .error .crcError :=
  decodeFrame_wrongCrc (lenByte_toNat hp).symm hc.symm

/-- R167 (b): one changed byte of kind and payload. -/
theorem decodeFrame_changed_body {kind b c : Byte} {payload : List Byte} {i : Nat} (hp : payload.length ≤ 255)
    (hb : (kind :: payload)[i]? = some b) (hc : c ≠ b) :
    decodeFrame ((frameBytes kind payload).set (i + 3) c) = .error .crcError := by
  have hcrc : crc8 (lenByte payload :: (kind :: payload).set i c) ≠ crc8 (lenByte payload :: kind :: payload) :=
    crc8_set_ne (bs := lenByte payload :: kind :: payload) (i := i + 1) hb hc
  cases i with
  | zero => exact decodeFrame_wrongCrc (lenByte_toNat hp).symm hcrc
  | succ i => exact decodeFrame_wrongCrc (List.length_set.trans (lenByte_toNat hp).symm) hcrc

/-- Settles O19 by where the bit is: in the start byte, in the checksum (`decodeFrame_changed_crc`), or in kind and
payload (`decodeFrame_changed_body`). -/
theorem oneFlippedBitOutsideLengthIsCaught : Obligations.OneFlippedBitOutsideLengthIsCaught := by
  intro kind payload i j b hp hj hb
  have hne : b ^^^ (1#8 <<< j) ≠ b := flip_ne b hj
  refine ⟨?_, ?_⟩
  · rintro rfl
    obtain rfl := Option.some.inj hb
    exact decodeFrame_wrongStart _ hne
  · rintro (rfl | hi)
    · obtain rfl := Option.some.inj hb
      exact decodeFrame_changed_crc hp hne
    · obtain ⟨m, rfl⟩ := Nat.exists_eq_add_of_le' hi
      exact decodeFrame_changed_body hp hb hne

/-- Settles O20: the payload is too short for a larger `length` (`decodeFrame_header`); the example by evaluation. -/
theorem changedLengthIsNotAlwaysCaught : Obligations.ChangedLengthIsNotAlwaysCaught := by
  refine ⟨fun kind payload len h => ?_, by decide +kernel, by decide +kernel⟩
  exact (decodeFrame_header _ len kind payload).trans (if_pos h)

/-! ### One exchange -/

/-- Acknowledged byte by byte, the send loop writes all its bytes and takes exactly their acknowledgments (R189). -/
theorem sendRun_acked (role : Role) (f : List Byte) :
    (sendRun role f (List.replicate f.length Config.ack)).failure = none ∧
    (sendRun role f (List.replicate f.length Config.ack)).written = f ∧
    (sendRun role f (List.replicate f.length Config.ack)).rest = [] := by
  induction f with
  | nil => exact ⟨rfl, rfl, rfl⟩
  | cons b f ih =>
    obtain ⟨hfailure, hwritten, hrest⟩ := ih
    simp [sendRun, List.replicate_succ, hfailure, hwritten, hrest]

/-- Settles O59: `DECODE` finds the frame, so the replies are one ACK for each of its bytes, and `sendRun_acked`. -/
theorem senderAndReceiverFit : Obligations.SenderAndReceiverFit := by
  intro kind payload later role policy hp wire replies
  have hdecode : decodeFrame (wire ++ later) = .ok ⟨kind, payload⟩ := decodeFrame_frameBytes kind hp later
  have hreads : recvReads (wire ++ later) = wire.length :=
    (recvReads_ok hdecode).trans (frameBytes_length kind payload).symm
  have hreplies : replies = List.replicate wire.length Config.ack := by
    rw [← hreads]
    exact recvReplies_ok policy hdecode
  rw [hreplies]
  exact ⟨hdecode, hreads, sendRun_acked role wire⟩

end Sys2Proof.Machine
end

section
/-! The Byte-Level Transport, step by step (R185 to R199): how a transfer is accepted, and what one step of the sequencer leaves
in each phase, with every element it does not write. -/

namespace Sys2Proof.Machine

open Sys2Proof

/-! ### A transfer is accepted -/

theorem exec_sendFrame_accepted {s : State} {payload : List Byte} (kind : Byte) (hp : s.phase = .idle)
    (hc : s.claimed = true) (hl : payload.length ≤ 255) :
    exec (.sendFrame kind payload) s = .next (startSend (frameBytes kind payload) s) := by
  simp [exec, execSendFrame, transferRefusal_none hp hc, encodeFrame_ok hl]

theorem exec_sendFrame_tooLong {s : State} {payload : List Byte} (kind : Byte) (hp : s.phase = .idle)
    (hc : s.claimed = true) (hl : 255 < payload.length) :
    exec (.sendFrame kind payload) s = .next (sendNotEncoded .valueError s) := by
  simp [exec, execSendFrame, transferRefusal_none hp hc, encodeFrame_error hl]

/-- Settles O21: a payload that fits is loaded, a longer one is not encoded. -/
theorem sendFrameIsAccepted : Obligations.SendFrameIsAccepted := by
  intro kind payload s hp hc
  refine ⟨rfl, ?_⟩
  by_cases hl : 255 < payload.length
  · rw [if_pos hl, exec_sendFrame_tooLong kind hp hc hl]
    rfl
  · rw [if_neg hl, exec_sendFrame_accepted kind hp hc (Nat.le_of_not_lt hl)]
    rfl

/-- Settles O22: nothing refuses it (`transferRefusal_none`), and `startRecv` is what R191 asks. -/
theorem recvFrameIsAccepted : Obligations.RecvFrameIsAccepted := by
  intro s hp hc
  refine ⟨rfl, ?_⟩
  simp only [exec, execRecvFrame, transferRefusal_none hp hc]
  rfl

/-! ### How a transfer fails (R262) -/

theorem failureEnding_eq (s : State) (st : Status) :
    failureEnding s st = if s.invoke = none then .failed st else .invoked st none := by
  cases hi : s.invoke <;> simp [failureEnding, hi]

/-- A send that fails keeps `RESULT`. -/
theorem takeFailure_sending {s : State} (st : Status) (d : Diag) (hp : s.phase.receiving = false) :
    takeFailure st d s = { s with
      phase := .idle, status := st, diag := d
      ending := some (if s.invoke = none then .failed st else .invoked st none)
      invoke := none } := by
  simp [takeFailure, failureEnding_eq, hp]

/-- A reception that fails leaves no result. -/
theorem takeFailure_receiving {s : State} (st : Status) (d : Diag) (hp : s.phase.receiving = true) :
    takeFailure st d s = { s with
      phase := .idle, status := st, diag := d, result := none
      ending := some (if s.invoke = none then .failed st else .invoked st none)
      invoke := none } := by
  simp [takeFailure, failureEnding_eq, hp]

/-! ### TX_WRITE (R187) -/

/-- Settles O32: the port decides between `stepTxWrite_open` and `stepTxWrite_closed`. -/
theorem txWriteWritesOneByte : Obligations.TxWriteWritesOneByte := by
  intro s b hin hp hb
  rw [step_nil hin, sequence_txWrite hp]
  by_cases ho : s.portOpen = true
  · rw [if_pos ho]
    exact stepTxWrite_open hb ho
  · have hsend : (afterClosedWrite s).phase.receiving = false := by simp [hp, Phase.receiving]
    rw [if_neg ho, stepTxWrite_closed hb (Bool.eq_false_of_not_eq_true ho), takeFailure_sending _ _ hsend]
    rfl

/-! ### TX_WAIT (R188) -/

/-- The byte that `LinkRead` takes from an open port, and what it leaves (R66, R181). -/
theorem afterRead_byte {s : State} {b : Byte} {later : List Byte} (ho : s.portOpen = true) (hb : s.inbound = b :: later) :
    afterRead s = { s with
      inbound := later
      trace := s.trace ++ [LinkEvent.mk (readDir s.params.role) (.byte b)] } := by
  simp [afterRead, readAnswer_byte ho hb, ReadAnswer.mark, ho, hb]

/-- A read that finds no byte leaves only its mark (R66, R181). -/
theorem afterRead_noByte {s : State} (h : s.portOpen = false ∨ s.inbound = []) :
    afterRead s = { s with
      trace := s.trace ++ [LinkEvent.mk (readDir s.params.role) (readAnswer s).mark] } := by
  rcases h with h | h <;> simp [afterRead, h]

theorem stepTxWait_ack {s : State} {later : List Byte} (ho : s.portOpen = true) (hb : s.inbound = Config.ack :: later) :
    stepTxWait s = .next (acked (afterRead s)) := by
  simp [stepTxWait, readAnswer_byte ho hb]

/-- Settles O33, by the three ways a send goes on from an ACK (`acked_cases`). -/
theorem txWaitGoesOnWithAck : Obligations.TxWaitGoesOnWithAck := by
  intro s later hin hp ho hb
  rw [step_nil hin, sequence_txWait hp, stepTxWait_ack ho hb]
  rcases acked_cases (afterRead s) with ⟨hne, e⟩ | ⟨hend, hinv, e⟩ | ⟨k, hend, hinv, e⟩ <;>
    rw [e, afterRead_byte ho hb]
  · replace hne : s.txIdx + 1 ≠ s.txLen := hne
    exact congrArg Host.Outcome.next (if_neg hne).symm
  · replace hend : s.txIdx + 1 = s.txLen := hend
    replace hinv : s.invoke = none := hinv
    simp only [if_pos hend, hinv]
    rfl
  · replace hend : s.txIdx + 1 = s.txLen := hend
    replace hinv : s.invoke = some k := hinv
    simp only [if_pos hend, hinv]
    rfl

/-- Settles O34, by what `TX_WAIT` does without an ACK (`stepTxWait_cases`) and what the read answers (`readAnswer_cases`). -/
theorem txWaitFailsWithoutAck : Obligations.TxWaitFailsWithoutAck := by
  intro s hin hp hno
  have hsend : (afterRead s).phase.receiving = false := by simp [hp, Phase.receiving]
  rw [step_nil hin, sequence_txWait hp]
  rcases stepTxWait_cases s with ⟨r, ho, hb, -⟩ | ⟨d, -, e, hd⟩
  · exact absurd ⟨ho, by rw [hb]; rfl⟩ hno
  · rw [takeFailure_sending _ _ hsend] at e
    refine ⟨(readAnswer s).mark, d, e, ?_⟩
    rcases readAnswer_cases s with ⟨ho, ha⟩ | ⟨ho, hb, ha⟩ | ⟨b, r, ho, hb, ha⟩
    · simp [hd, ha, ho, ReadAnswer.mark]
    · simp [hd, ha, ho, hb, ReadAnswer.mark]
    · refine ⟨by simp [ho], by simp [hb], fun b' _ hb' => ?_⟩
      obtain rfl : b = b' := by simpa [hb] using hb'
      rw [hd, ha]
      exact ⟨rfl, rfl⟩

/-! ### RX_WAIT (R192, R196) -/

theorem stepRxWait_noByte {s : State} {d : Diag}
    (h : readAnswer s = .closed ∧ d = .closed ∨ readAnswer s = .timeout ∧ d = .timeout) :
    stepRxWait s = .next (takeFailure .recvPartialFrameValidationError d (afterRead s)) := by
  rcases h with ⟨ha, rfl⟩ | ⟨ha, rfl⟩ <;> simp [stepRxWait, ha]

/-- Settles O35, answer by answer of `LinkRead`. -/
theorem rxWaitReadsOneByte : Obligations.RxWaitReadsOneByte := by
  intro s hin hp failed
  have hrec : (afterRead s).phase.receiving = true := receiving_iff.mpr (.inl hp)
  rw [step_nil hin, sequence_rxWait hp]
  refine ⟨fun ho => ?_, fun ho hb => ?_, fun b later ho hb => ?_⟩
  · have ha := readAnswer_closed ho
    rw [stepRxWait_noByte (.inl ⟨ha, rfl⟩), takeFailure_receiving _ _ hrec, afterRead_noByte (.inl ho), ha]
    rfl
  · have ha := readAnswer_timeout ho hb
    rw [stepRxWait_noByte (.inr ⟨ha, rfl⟩), takeFailure_receiving _ _ hrec, afterRead_noByte (.inr hb), ha]
    rfl
  · simp [stepRxWait, readAnswer_byte ho hb, afterRead_byte ho hb]

/-! ### RX_REPLY (R193, R194) -/

/-- R193: a byte is unexpected when the accumulator rejected it, or under `crc_gated` when it ends a frame with a wrong
checksum. -/
theorem expected_eq_false_iff (p : Params) (a : Accumulator) :
    expected p a = false ↔ a.exp = false ∨ a.st = .crcError ∧ p.lastByte = .crcGated := by
  cases he : a.exp <;> simp [expected, he, and_comm]

theorem countNack_eq (s : State) :
    countNack s = { s with rxNacks := if expected s.params s.dec = false then s.rxNacks + 1 else s.rxNacks } := by
  simp only [countNack, ackByte_nack_iff]

/-- Over an open port an expected byte is answered ACK, and the verdict follows. -/
theorem step_rxReply_expected {s : State} (hin : s.inputs = []) (hp : s.phase = .rxReply) (ho : s.portOpen = true)
    (he : expected s.params s.dec = true) : step s = afterReply (afterWrite Config.ack s) := by
  rw [step_nil hin, sequence_rxReply hp, stepRxReply_open ho, ackByte_of_expected he, countNack_eq, if_neg (by simp [he])]

/-- Over an open port an unexpected byte is answered NACK and counted, and the verdict follows. -/
theorem step_rxReply_unexpected {s : State} (hin : s.inputs = []) (hp : s.phase = .rxReply) (ho : s.portOpen = true)
    (he : expected s.params s.dec = false) :
    step s = afterReply (afterWrite Config.nack { s with rxNacks := s.rxNacks + 1 }) := by
  rw [step_nil hin, sequence_rxReply hp, stepRxReply_open ho, (ackByte_nack_iff _ _).mpr he, countNack_eq, if_pos he]

theorem afterReply_incomplete {s : State} (h : s.dec.st = .incomplete) :
    afterReply s = .next { s with phase := .rxWait } := by simp [afterReply, h]

theorem afterReply_sofError {s : State} (h : s.dec.st = .sofError) :
    afterReply s = .next (verdictFailure .recvFrameSofError s) := by simp [afterReply, h]

theorem afterReply_crcError {s : State} (h : s.dec.st = .crcError) :
    afterReply s = .next (verdictFailure .recvFrameCrcError s) := by simp [afterReply, h]

theorem afterReply_complete {s : State} {f : Frame} (h : s.dec.st = .complete) (hf : frameIn s.dec.buf = some f) :
    afterReply s = .next (recvDone f s) := by simp [afterReply, h, hf]

/-- A verdict's own status stands when no NACK was written (R195, R197). -/
theorem verdictFailure_noNack {s : State} (own : Status) (h : s.rxNacks = 0) :
    verdictFailure own s = takeFailure own .none s := by simp [verdictFailure, h]

/-- Once a NACK was written under `any_after_nack`, the environment chooses among three statuses (R199). -/
theorem verdictFailure_anyAfterNack {s : State} (own : Status) (h : s.params.desync = .anyAfterNack)
    (hn : 1 ≤ s.rxNacks) : ∃ st, verdictFailure own s = takeFailure st .none { s with free := s.free + 1 } ∧
      (st = .recvFrameSofError ∨ st = .recvFrameNackError ∨ st = .recvFrameAckError) := by
  refine ⟨DesyncChoice.status (Config.desyncChoice s.free), by simp [verdictFailure, h, hn], ?_⟩
  cases Config.desyncChoice s.free <;> simp [DesyncChoice.status]

/-- Settles O36: the verdict is no checksum failure, so `DEC.EXP` alone decides the acknowledgment. -/
theorem rxReplyAcknowledgesAndGoesOn : Obligations.RxReplyAcknowledgesAndGoesOn := by
  intro s hin hp ho hst
  cases hexp : s.dec.exp with
  | true =>
    calc step s = _ := step_rxReply_expected hin hp ho (expected_of_open hexp (by simp [hst]))
      _ = _ := afterReply_incomplete hst
  | false =>
    calc step s = _ := step_rxReply_unexpected hin hp ho (expected_of_rejected hexp)
      _ = _ := afterReply_incomplete hst

/-- Settles O37: the rejected byte is answered NACK, and the verdict's own status stands. -/
theorem wrongStartByteIsNackedThenFails : Obligations.WrongStartByteIsNackedThenFails := by
  intro s hin hp ho hst hexp hnever
  have hrec : s.phase.receiving = true := receiving_iff.mpr (.inr hp)
  calc step s = _ := step_rxReply_unexpected hin hp ho (expected_of_rejected hexp)
    _ = .next (verdictFailure .recvFrameSofError _) := afterReply_sofError hst
    _ = .next (takeFailure .recvFrameSofError .none _) := congrArg Host.Outcome.next (verdictFailure_never _ hnever)
    _ = _ := congrArg Host.Outcome.next (takeFailure_receiving _ _ hrec)

/-- Settles O38: the policy decides the acknowledgment, and in either case the verdict's own status stands. -/
theorem checksumFailureEndsTheReception : Obligations.ChecksumFailureEndsTheReception := by
  intro s hin hp ho hst hexp hown
  have hrec : s.phase.receiving = true := receiving_iff.mpr (.inr hp)
  cases hl : s.params.lastByte with
  | positionOnly =>
    have he : expected s.params s.dec = true := by simp [expected, hexp, hl]
    have hv : verdictFailure .recvFrameCrcError (afterWrite Config.ack s) =
        takeFailure .recvFrameCrcError .none (afterWrite Config.ack s) := by
      rcases hown with hnever | ⟨-, hn⟩
      · exact verdictFailure_never _ hnever
      · exact verdictFailure_noNack _ hn
    calc step s = _ := step_rxReply_expected hin hp ho he
      _ = .next (verdictFailure .recvFrameCrcError _) := afterReply_crcError hst
      _ = .next (takeFailure .recvFrameCrcError .none _) := congrArg Host.Outcome.next hv
      _ = _ := congrArg Host.Outcome.next (takeFailure_receiving _ _ hrec)
  | crcGated =>
    have he : expected s.params s.dec = false := (expected_eq_false_iff _ _).mpr (.inr ⟨hst, hl⟩)
    have hnever : s.params.desync = .never := by simpa [hl] using hown
    calc step s = _ := step_rxReply_unexpected hin hp ho he
      _ = .next (verdictFailure .recvFrameCrcError _) := afterReply_crcError hst
      _ = .next (takeFailure .recvFrameCrcError .none _) := congrArg Host.Outcome.next (verdictFailure_never _ hnever)
      _ = _ := congrArg Host.Outcome.next (takeFailure_receiving _ _ hrec)

/-- Settles O39: in both cases the byte is answered NACK and counted, so the environment chooses the status
(`verdictFailure_anyAfterNack`). -/
theorem desyncStatusAfterNack : Obligations.DesyncStatusAfterNack := by
  intro s hin hp ho hany hcase
  have hrec : s.phase.receiving = true := receiving_iff.mpr (.inr hp)
  have he : expected s.params s.dec = false :=
    (expected_eq_false_iff _ _).mpr (hcase.imp (fun h => h.2) fun ⟨hst, _, hl⟩ => ⟨hst, hl⟩)
  obtain ⟨own, hown⟩ : ∃ own, step s =
      .next (verdictFailure own (afterWrite Config.nack { s with rxNacks := s.rxNacks + 1 })) := by
    rw [step_rxReply_unexpected hin hp ho he]
    exact hcase.elim (fun ⟨hst, _⟩ => ⟨_, afterReply_sofError hst⟩) fun ⟨hst, _⟩ => ⟨_, afterReply_crcError hst⟩
  obtain ⟨st, hst, hchoice⟩ := verdictFailure_anyAfterNack
    (s := afterWrite Config.nack { s with rxNacks := s.rxNacks + 1 }) own hany (Nat.le_add_left 1 _)
  have hstep : step s = _ :=
    hown.trans (congrArg Host.Outcome.next (hst.trans (takeFailure_receiving _ _ hrec)))
  exact ⟨_, hstep, rfl, rfl, rfl, rfl, rfl, rfl, rfl, rfl, hchoice⟩

/-- Settles O40: the last byte is answered ACK, and `recvDone_none` latches the frame. -/
theorem completeFrameIsLatched : Obligations.CompleteFrameIsLatched := by
  intro s f hin hp ho hst hexp hf hinv
  have he : expected s.params s.dec = true := expected_of_open hexp (by simp [hst])
  calc step s = _ := step_rxReply_expected hin hp ho he
    _ = .next (recvDone f _) := afterReply_complete hst hf
    _ = .next (takeSuccess (.frame f) { afterWrite Config.ack s with result := some f }) :=
        congrArg Host.Outcome.next (recvDone_none f hinv)
    _ = _ := by simp only [takeSuccess, hinv]; rfl

/-- Settles O42: the closed port comes before the verdict, and the count before the write. -/
theorem closedWriteBeatsTheVerdict : Obligations.ClosedWriteBeatsTheVerdict := by
  intro s hin hp ho
  have hrec : s.phase.receiving = true := receiving_iff.mpr (.inr hp)
  have hclosed : (afterClosedWrite (countNack s)).phase.receiving = true := hrec
  rw [step_nil hin, sequence_rxReply hp, stepRxReply_closed ho, takeFailure_receiving _ _ hclosed, countNack_eq]
  simp only [expected_eq_false_iff]
  rfl

end Sys2Proof.Machine
end

section
/-! The transfers as wholes (R185, R204, R307, R318): what a closed port does to one, the bound on its steps, and the loop of
`SEND_FRAME`. -/

namespace Sys2Proof.Machine

open Sys2Proof

/-! ### What the sequencer leaves of the environment -/

/-- The elements of the environment that no step of the sequencer writes. -/
def State.envView (s : State) : Bool × List Input := (s.portOpen, s.inputs)

theorem envView_eq_iff {s t : State} : t.envView = s.envView ↔ t.portOpen = s.portOpen ∧ t.inputs = s.inputs := by
  simp [State.envView]

@[simp] theorem acked_envView (s : State) : (acked s).envView = s.envView := by
  rcases acked_cases s with ⟨-, e⟩ | ⟨-, -, e⟩ | ⟨-, -, -, e⟩ <;> rw [e] <;> rfl

@[simp] theorem verdictFailure_envView (own : Status) (s : State) : (verdictFailure own s).envView = s.envView := by
  obtain ⟨_, _, e, -⟩ := verdictFailure_cases own s
  rw [e]; rfl

@[simp] theorem recvDone_envView (f : Frame) (s : State) : (recvDone f s).envView = s.envView := by
  unfold recvDone
  split <;> rfl

theorem afterReply_envView {s t : State} (h : afterReply s = .next t) : t.envView = s.envView := by
  rcases afterReply_next h with ⟨-, rfl⟩ | ⟨-, rfl⟩ | ⟨-, rfl⟩ | ⟨f, -, -, rfl⟩
  · rfl
  · exact verdictFailure_envView _ _
  · exact verdictFailure_envView _ _
  · exact recvDone_envView _ _

theorem sequence_envView {s t : State} (h : sequence s = .next t) : t.envView = s.envView := by
  cases hp : s.phase with
  | idle => rw [sequence_idle hp] at h; obtain rfl := Host.Outcome.next.inj h; rfl
  | txWrite =>
    rw [sequence_txWrite hp] at h
    obtain ⟨b, -, ⟨-, rfl⟩ | ⟨-, rfl⟩⟩ := stepTxWrite_next h <;> rfl
  | txWait =>
    rw [sequence_txWait hp] at h
    rcases stepTxWait_cases s with ⟨_, -, -, e⟩ | ⟨_, -, e, -⟩ <;> rw [e] at h <;>
      obtain rfl := Host.Outcome.next.inj h
    · exact acked_envView _
    · rfl
  | rxWait =>
    rw [sequence_rxWait hp] at h
    rcases stepRxWait_cases s with ⟨_, _, -, -, e⟩ | ⟨_, -, e⟩ <;> rw [e] at h <;>
      obtain rfl := Host.Outcome.next.inj h <;> rfl
  | rxReply =>
    rw [sequence_rxReply hp] at h
    rcases stepRxReply_next h with ⟨-, hr⟩ | ⟨-, rfl⟩
    · exact (afterReply_envView hr).trans rfl
    · rfl

theorem sequence_portOpen {s t : State} (h : sequence s = .next t) : t.portOpen = s.portOpen :=
  (envView_eq_iff.mp (sequence_envView h)).1

theorem sequence_inputs {s t : State} (h : sequence s = .next t) : t.inputs = s.inputs :=
  (envView_eq_iff.mp (sequence_envView h)).2

/-! ### A closed port (R181, R307, R318) -/

/-- A byte due to be sent is in the buffer (R61). -/
theorem memRead_of_lt {s : State} (h : s.txIdx < s.txLen) : s.memRead .txBuf s.txIdx = some (s.txBuf[s.txIdx]'h) :=
  List.getElem?_eq_getElem h

/-- How a transfer in progress in `s` ends when its next link primitive finds the port closed (R307). -/
structure EndsClosed (s u : State) : Prop where
  phase : u.phase = .idle
  status : u.status =
    if s.phase = .txWrite ∨ s.phase = .txWait then .sendCmdFailure else .recvPartialFrameValidationError
  diag : u.diag = .closed
  outbound : u.outbound = s.outbound
  inbound : u.inbound = s.inbound

theorem sequence_closed {s : State} (h : s.Inv) (ho : s.portOpen = false) (hp : s.phase ≠ .idle) :
    ∃ u, sequence s = .next u ∧ EndsClosed s u := by
  have ha : readAnswer s = .closed := readAnswer_closed ho
  have hread : (afterRead s).inbound = s.inbound := by simp [ho]
  cases hphase : s.phase with
  | idle => exact absurd hphase hp
  | txWrite =>
    have hb := memRead_of_lt (h.tx_more (.inl hphase))
    exact ⟨_, (sequence_txWrite hphase).trans (stepTxWrite_closed hb ho), rfl, by simp [hphase], rfl, rfl, rfl⟩
  | txWait =>
    have hstep : stepTxWait s = .next (takeFailure .sendCmdFailure .closed (afterRead s)) := by simp [stepTxWait, ha]
    exact ⟨_, (sequence_txWait hphase).trans hstep, rfl, by simp [hphase], rfl, rfl, hread⟩
  | rxWait =>
    exact ⟨_, (sequence_rxWait hphase).trans (stepRxWait_noByte (.inl ⟨ha, rfl⟩)), rfl, by simp [hphase], rfl, rfl, hread⟩
  | rxReply =>
    exact ⟨_, (sequence_rxReply hphase).trans (stepRxReply_closed ho), rfl, by simp [hphase], rfl, rfl, rfl⟩

/-- R181: of the operations and symbols only a `CLAIM` in `IDLE` opens a closed port. -/
theorem exec_stays_closed {i : Instr} {s t : State} (h : exec i s = .next t) (ho : s.portOpen = false)
    (hclaim : ∀ port, i = .claim port → s.phase ≠ .idle) : t.portOpen = false := by
  cases i with
  | crcClr | crcUpd _ | crcRd | checksum _ | encode _ _ | decode _ | frame _ _ _ | ack | nack
  | frameGetLowPowerEnable _ _ | frameGetDi _ _ =>
    cases h
    exact ho
  | release =>
    cases h
    rfl
  | reservedE | reservedF => cases h
  | decRst | decPush _ | recvFrame =>
    simp only [exec, execDecRst, execDecPush, execRecvFrame] at h
    split at h <;> cases h
    exact ho
  | decQry =>
    simp only [exec, execDecQry] at h
    split at h
    · split at h <;> cases h
      exact ho
    · cases h
      exact ho
  | sendFrame kind payload =>
    simp only [exec, execSendFrame] at h
    split at h
    · cases h
    · split at h <;> cases h <;> exact ho
  | invoke kind args =>
    simp only [exec, execInvoke] at h
    split at h <;> cases h
    rcases invokeStart_cases kind args s with ⟨_, _, e, -⟩ | ⟨_, -, -, -, -, e⟩ <;> rw [e] <;> exact ho
  | claim port =>
    simp only [exec, execClaim] at h
    split at h
    next => cases h
    next hr => exact absurd (busyRefusal_eq_none.mp hr) (hclaim port rfl)

theorem takeInput_stays_closed {i : Input} {s t : State} (h : takeInput i s = .next t) (ho : s.portOpen = false)
    (hclaim : ∀ p port, i = .present p → decode p = .ok (.claim port) → s.phase ≠ .idle) : t.portOpen = false := by
  cases i with
  | present p =>
    simp only [takeInput, present] at h
    split at h
    next j hj => exact exec_stays_closed h ho fun port hport => hclaim p port rfl (hport ▸ hj)
    next =>
      cases p with
      | op r => cases h
      | wire bytes => cases h; exact ho
  | run => exact (sequence_portOpen h).trans ho
  | link _ _ | reset => cases h; exact ho
  | closePort => cases h; rfl

/-- Settles O30: in the state that `RELEASE` or the close leaves, the next link primitive fails (`sequence_closed`); and no
input but a `CLAIM` opens a closed port (`takeInput_stays_closed`). -/
theorem releaseAbandonsTheTransfer : Obligations.ReleaseAbandonsTheTransfer := by
  refine ⟨?_, fun s t ht ho hclaim => ?_⟩
  · intro s hin h hp abandoned
    have habandoned : ∀ t : State, t.Inv → t.inputs = [] → t.portOpen = false → t.phase = s.phase →
        t.outbound = s.outbound → t.inbound = s.inbound → abandoned t := by
      intro t hinv hnil ho hphase hout hinb
      obtain ⟨u, hu, hend⟩ := sequence_closed hinv ho (hphase ▸ hp)
      exact ⟨hphase, u, (step_nil hnil).trans hu, hend.phase, hphase ▸ hend.status, hend.diag, hend.outbound.trans hout,
        hend.inbound.trans hinb⟩
    have hclosed : State.Inv { s with portOpen := false } := h.with_port h.handle_claimed fun _ ho => by cases ho
    refine ⟨⟨_, rfl, rfl, habandoned _ (exec_inv (i := .release) h rfl) hin rfl rfl rfl rfl⟩, ?_⟩
    exact ⟨_, rfl, rfl, habandoned _ (hclosed.with_inputs []) rfl rfl rfl rfl rfl⟩
  · cases hi : s.inputs with
    | nil =>
      rw [step_nil hi] at ht
      exact (sequence_portOpen ht).trans ho
    | cons i rest =>
      rw [step_cons hi] at ht
      exact takeInput_stays_closed ht ho fun p port hport => hclaim p rest port (hport ▸ hi)

/-! ### The bound on a transfer (R204, R318) -/

/-- A bound on the steps of the reception that an invocation's send is followed by (R204, R220). -/
def State.responseSteps (s : State) : Nat := if s.invoke = none then 0 else 518

/-- A bound on the steps to `IDLE`: two for each byte that is still to be sent or may still be received. -/
def State.stepsLeft (s : State) : Nat :=
  match s.phase with
  | .idle => 0
  | .txWrite => 2 * (s.txLen - s.txIdx) + s.responseSteps
  | .txWait => 2 * (s.txLen - s.txIdx) - 1 + s.responseSteps
  | .rxWait => 2 * (259 - s.dec.n)
  | .rxReply => if s.dec.st = .incomplete then 2 * (259 - s.dec.n) + 1 else 1

section
variable {s t : State}

theorem stepsLeft_idle (hp : s.phase = .idle) : s.stepsLeft = 0 := by simp [State.stepsLeft, hp]

theorem stepsLeft_txWrite (hp : s.phase = .txWrite) : s.stepsLeft = 2 * (s.txLen - s.txIdx) + s.responseSteps := by
  simp [State.stepsLeft, hp]

theorem stepsLeft_txWait (hp : s.phase = .txWait) :
    s.stepsLeft = 2 * (s.txLen - s.txIdx) - 1 + s.responseSteps := by simp [State.stepsLeft, hp]

theorem stepsLeft_rxWait (hp : s.phase = .rxWait) : s.stepsLeft = 2 * (259 - s.dec.n) := by
  simp [State.stepsLeft, hp]

theorem stepsLeft_rxReply (hp : s.phase = .rxReply) :
    s.stepsLeft = if s.dec.st = .incomplete then 2 * (259 - s.dec.n) + 1 else 1 := by simp [State.stepsLeft, hp]

@[simp] theorem verdictFailure_phase (own : Status) (s : State) : (verdictFailure own s).phase = .idle := by
  obtain ⟨_, _, e, -⟩ := verdictFailure_cases own s
  rw [e]; rfl

@[simp] theorem recvDone_phase (f : Frame) (s : State) : (recvDone f s).phase = .idle := by
  unfold recvDone
  split <;> rfl

/-- A frame has at most 259 bytes (R61). -/
theorem State.Inv.txLen_le (h : s.Inv) : s.txLen ≤ 259 := by
  rcases h.txBuf_frame with he | hw
  · simp [State.txLen, he]
  · exact (wellFormedFrame_length hw).2

theorem State.Inv.n_lt_of_rxWait (h : s.Inv) (hp : s.phase = .rxWait) : s.dec.n < 259 :=
  n_lt_of_incomplete h.dec (h.rxWait_open hp).1

theorem State.Inv.one_le_n_of_rxReply (h : s.Inv) (hp : s.phase = .rxReply) (hst : s.dec.st = .incomplete) :
    1 ≤ s.dec.n := by
  obtain ⟨-, hexp, hstored⟩ := h.rxReply_judged hp
  exact hstored (hexp.mpr (by simp [hst]))

/-- A transfer in progress has a step to make. -/
theorem stepsLeft_pos (h : s.Inv) (hp : s.phase ≠ .idle) : 0 < s.stepsLeft := by
  cases hphase : s.phase with
  | idle => exact absurd hphase hp
  | txWrite =>
    have := h.tx_more (.inl hphase)
    rw [stepsLeft_txWrite hphase]; omega
  | txWait =>
    have := h.tx_more (.inr hphase)
    rw [stepsLeft_txWait hphase]; omega
  | rxWait =>
    have := h.n_lt_of_rxWait hphase
    rw [stepsLeft_rxWait hphase]; omega
  | rxReply =>
    rw [stepsLeft_rxReply hphase]
    split <;> omega

theorem stepsLeft_le (h : s.Inv) : s.stepsLeft ≤ 1036 := by
  have hlen := h.txLen_le
  have hresp : s.responseSteps ≤ 518 := by unfold State.responseSteps; split <;> omega
  cases hp : s.phase with
  | idle => rw [stepsLeft_idle hp]; omega
  | txWrite => rw [stepsLeft_txWrite hp]; omega
  | txWait => rw [stepsLeft_txWait hp]; omega
  | rxWait => rw [stepsLeft_rxWait hp]; omega
  | rxReply => rw [stepsLeft_rxReply hp]; split <;> omega

theorem stepsLeft_le_of_receiving (h : s.Inv) (hp : s.phase = .rxWait ∨ s.phase = .rxReply) : s.stepsLeft ≤ 518 := by
  rcases hp with hp | hp
  · rw [stepsLeft_rxWait hp]; omega
  · rw [stepsLeft_rxReply hp]
    split
    next hst =>
      have := h.one_le_n_of_rxReply hp hst
      omega
    next => omega

theorem stepsLeft_le_of_caller (h : s.Inv) (hinv : s.invoke = none) : s.stepsLeft ≤ 518 := by
  have hlen := h.txLen_le
  have hresp : s.responseSteps = 0 := if_pos hinv
  cases hp : s.phase with
  | idle => rw [stepsLeft_idle hp]; omega
  | txWrite => rw [stepsLeft_txWrite hp]; omega
  | txWait => rw [stepsLeft_txWait hp]; omega
  | rxWait => exact stepsLeft_le_of_receiving h (.inl hp)
  | rxReply => exact stepsLeft_le_of_receiving h (.inr hp)

/-- An acknowledged byte: the next one is due, or the send is over and at most a reception follows (R188). -/
theorem stepsLeft_acked_lt (hmore : s.txIdx < s.txLen) (hp : s.phase = .txWait) :
    (acked s).stepsLeft < s.stepsLeft := by
  rw [stepsLeft_txWait hp]
  rcases acked_cases s with ⟨hne, e⟩ | ⟨hend, -, e⟩ | ⟨k, hend, hinv, e⟩ <;> rw [e]
  · rw [stepsLeft_txWrite rfl]
    show 2 * (s.txLen - (s.txIdx + 1)) + s.responseSteps < _
    omega
  · rw [stepsLeft_idle rfl]
    omega
  · have hresp : s.responseSteps = 518 := if_neg (by simp [hinv])
    rw [stepsLeft_rxWait rfl, startRecv_dec]
    show 2 * 259 < _
    omega

/-- A byte pushed: the frame holds one byte more, or its verdict is final (R156). -/
theorem stepsLeft_pushed_lt {b : Byte} (h : s.Inv) (hp : s.phase = .rxWait) (ht : t.phase = .rxReply)
    (hdec : t.dec = s.dec.push b) : t.stepsLeft < s.stepsLeft := by
  have hlt := h.n_lt_of_rxWait hp
  rw [stepsLeft_rxReply ht, stepsLeft_rxWait hp, hdec]
  split
  next hst =>
    have hn : (s.dec.push b).n = s.dec.n + 1 := by
      rcases push_open b (h.rxWait_open hp).1 with ⟨hsof, -⟩ | ⟨-, -, hbuf⟩
      · simp [hst] at hsof
      · simp [Accumulator.n, hbuf]
    omega
  next => omega

/-- Every step of a transfer brings its end nearer. -/
theorem sequence_stepsLeft_lt (h : s.Inv) (hp : s.phase ≠ .idle) (ht : sequence s = .next t) :
    t.stepsLeft < s.stepsLeft := by
  have ends : t.phase = .idle → t.stepsLeft < s.stepsLeft := fun hidle => by
    rw [stepsLeft_idle hidle]
    exact stepsLeft_pos h hp
  cases hphase : s.phase with
  | idle => exact absurd hphase hp
  | txWrite =>
    rw [sequence_txWrite hphase] at ht
    obtain ⟨b, -, ⟨-, rfl⟩ | ⟨-, rfl⟩⟩ := stepTxWrite_next ht
    · have := h.tx_more (.inl hphase)
      rw [stepsLeft_txWrite hphase, stepsLeft_txWait rfl]
      show 2 * (s.txLen - s.txIdx) - 1 + s.responseSteps < _
      omega
    · exact ends rfl
  | txWait =>
    rw [sequence_txWait hphase] at ht
    rcases stepTxWait_cases s with ⟨_, -, -, e⟩ | ⟨_, -, e, -⟩ <;> rw [e] at ht <;>
      obtain rfl := Host.Outcome.next.inj ht
    · exact (stepsLeft_acked_lt (s := afterRead s) (h.tx_more (.inr hphase)) hphase).trans_eq rfl
    · exact ends rfl
  | rxWait =>
    rw [sequence_rxWait hphase] at ht
    rcases stepRxWait_cases s with ⟨_, _, -, -, e⟩ | ⟨_, -, e⟩ <;> rw [e] at ht <;>
      obtain rfl := Host.Outcome.next.inj ht
    · exact stepsLeft_pushed_lt h hphase rfl rfl
    · exact ends rfl
  | rxReply =>
    rw [sequence_rxReply hphase] at ht
    rcases stepRxReply_next ht with ⟨-, hr⟩ | ⟨-, rfl⟩
    · rcases afterReply_next hr with ⟨hst, rfl⟩ | ⟨-, rfl⟩ | ⟨-, rfl⟩ | ⟨f, -, -, rfl⟩
      · have hleft : s.stepsLeft = 2 * (259 - s.dec.n) + 1 := (stepsLeft_rxReply hphase).trans (if_pos hst)
        rw [hleft, stepsLeft_rxWait rfl]
        exact Nat.lt_succ_self _
      · exact ends (verdictFailure_phase _ _)
      · exact ends (verdictFailure_phase _ _)
      · exact ends (recvDone_phase _ _)
    · exact ends rfl

/-- R204: as many steps as are left reach `IDLE`. -/
theorem runSteps_reaches_idle (k : Nat) (h : s.Inv) (hin : s.inputs = []) (hk : s.stepsLeft ≤ k) :
    ∃ t, runSteps k s = .next t ∧ t.phase = .idle := by
  by_cases hp : s.phase = .idle
  · exact ⟨s, runSteps_idle k hin hp, hp⟩
  · induction k generalizing s with
    | zero => exact absurd hk (Nat.not_le_of_gt (stepsLeft_pos h hp))
    | succ k ih =>
      obtain ⟨t, ht⟩ := sequence_progress h
      have hlt := sequence_stepsLeft_lt h hp ht
      have hnil : t.inputs = [] := (sequence_inputs ht).trans hin
      rw [runSteps_next k ((step_nil hin).trans ht)]
      by_cases hidle : t.phase = .idle
      · exact ⟨t, runSteps_idle k hnil hidle, hidle⟩
      · exact ih (sequence_inv h ht) hnil (by omega) hidle

end

/-- Settles O56: the steps left are bounded by 518 in a transfer of the caller's and in any reception, and by twice that in
every case, and that many steps reach `IDLE` (`runSteps_reaches_idle`). -/
theorem everyTransferEnds : Obligations.EveryTransferEnds := by
  refine fun s h hin => ⟨fun hcase => ?_, runSteps_reaches_idle 1036 h hin (stepsLeft_le h)⟩
  refine runSteps_reaches_idle 518 h hin ?_
  rcases hcase with hinv | hp
  · exact stepsLeft_le_of_caller h hinv
  · exact stepsLeft_le_of_receiving h hp

/-! ### The loop of SEND_FRAME (R185) -/

/-- A `SEND_FRAME` of the caller's over an open port has the bytes `f` still to send. -/
structure Sends (f : List Byte) (s : State) : Prop where
  phase : s.phase = .txWrite
  portOpen : s.portOpen = true
  inputs : s.inputs = []
  invoke : s.invoke = none
  unsent : s.txBuf.drop s.txIdx = f

/-- The state in which a send that was under way in `s` has ended with the outcome `r`. -/
def sendEnded (r : SendRun) (s : State) : State :=
  { s with
    phase := .idle
    txIdx := s.txIdx + r.idx
    status := r.status
    diag := r.failure.getD .none
    ending := some (if r.failure = none then .sent else .failed .sendCmdFailure)
    inbound := r.rest
    outbound := s.outbound ++ r.written
    trace := s.trace ++ r.events }

/-- The state in which the byte `b` is written and its reply awaited (R187). -/
def written (b : Byte) (s : State) : State := { afterWrite b s with phase := .txWait }

/-- The state in which the reply to the byte `b` was read and is ACK (R188). -/
def acknowledged (b : Byte) (s : State) : State := { afterRead (written b s) with txIdx := s.txIdx + 1 }

section
variable {s : State} {b : Byte} {f later : List Byte}

theorem Sends.memRead (h : Sends (b :: f) s) : s.memRead .txBuf s.txIdx = some b := by
  show s.txBuf[s.txIdx]? = some b
  rw [← List.head?_drop, h.unsent]
  rfl

theorem Sends.txLen (h : Sends (b :: f) s) : s.txLen = s.txIdx + 1 + f.length := by
  have := congrArg List.length h.unsent
  rw [List.length_drop, List.length_cons] at this
  unfold State.txLen
  omega

/-- The two steps for one byte end as `TX_WAIT` does once the byte is written (R187, R188). -/
theorem Sends.two_steps (h : Sends (b :: f) s) {u : State} (hu : stepTxWait (written b s) = .next u) :
    runSteps 2 s = .next u := by
  have hwrite : step s = .next (written b s) := by
    rw [step_nil h.inputs, sequence_txWrite h.phase]
    exact stepTxWrite_open h.memRead h.portOpen
  have hread : step (written b s) = .next u := by
    rw [step_nil (s := written b s) h.inputs, sequence_txWait rfl]
    exact hu
  rw [runSteps_next 1 hwrite, runSteps_next 0 hread, runSteps_zero]

/-- No reply, or one that is not ACK, ends the send (R188). -/
theorem Sends.fails (h : Sends (b :: f) s) (hno : s.inbound.head? ≠ some Config.ack) :
    stepTxWait (written b s) = .next (sendEnded (sendRun s.params.role (b :: f) s.inbound) s) := by
  have hsend : (afterRead (written b s)).phase.receiving = false := rfl
  rcases stepTxWait_cases (written b s) with ⟨r, -, hb, -⟩ | ⟨d, -, e, hd⟩
  · exact absurd (congrArg List.head? hb) hno
  · rw [e, takeFailure_sending _ _ hsend]
    cases hb : s.inbound with
    | nil =>
      have ha : readAnswer (written b s) = .timeout := readAnswer_timeout h.portOpen hb
      rw [hd, ha, afterRead_noByte (s := written b s) (.inr hb), ha]
      simp [sendRun, sendEnded, SendRun.status, written, h.invoke, hb, ReadAnswer.mark]
    | cons r later =>
      have hr : r ≠ Config.ack := by simpa [hb] using hno
      rw [hd, readAnswer_byte (s := written b s) h.portOpen hb, afterRead_byte (s := written b s) h.portOpen hb]
      simp [sendRun, sendEnded, SendRun.status, written, h.invoke, hr]

/-- After an ACK the loop over the bytes that are left ends where the whole loop does. -/
theorem Sends.sendEnded_acknowledged (h : Sends (b :: f) s) (hb : s.inbound = Config.ack :: later) :
    sendEnded (sendRun s.params.role f later) (acknowledged b s) =
      sendEnded (sendRun s.params.role (b :: f) s.inbound) s := by
  rw [acknowledged, afterRead_byte (s := written b s) h.portOpen hb, hb]
  simp [sendRun, sendEnded, SendRun.status, written, Nat.add_assoc, Nat.add_comm 1]

/-- The last byte acknowledged: the send ends ok (R188). -/
theorem Sends.succeeds (h : Sends [b] s) (hb : s.inbound = Config.ack :: later) :
    stepTxWait (written b s) = .next (sendEnded (sendRun s.params.role [b] s.inbound) s) := by
  rw [stepTxWait_ack (s := written b s) h.portOpen hb, ← h.sendEnded_acknowledged hb]
  rcases acked_cases (afterRead (written b s)) with ⟨hne, -⟩ | ⟨-, -, e⟩ | ⟨k, -, hinv, -⟩
  · exact absurd h.txLen.symm hne
  · rw [e]
    simp [takeSuccess, acknowledged, written, sendRun, sendEnded, SendRun.status, h.portOpen, h.invoke, hb]
  · cases h.invoke.symm.trans hinv

/-- A byte acknowledged before the last: the next one is to be sent (R188). -/
theorem Sends.goes_on (h : Sends (b :: f) s) (hf : f ≠ []) (hb : s.inbound = Config.ack :: later) :
    stepTxWait (written b s) = .next { acknowledged b s with phase := .txWrite } ∧
      Sends f { acknowledged b s with phase := .txWrite } := by
  have hlen := h.txLen
  have hpos := List.length_pos_of_ne_nil hf
  constructor
  · rw [stepTxWait_ack (s := written b s) h.portOpen hb]
    rcases acked_cases (afterRead (written b s)) with ⟨-, e⟩ | ⟨hend, -⟩ | ⟨k, hend, -⟩
    · rw [e]
      rfl
    all_goals
      replace hend : s.txIdx + 1 = s.txLen := hend
      omega
  · refine ⟨rfl, h.portOpen, h.inputs, h.invoke, ?_⟩
    show s.txBuf.drop (s.txIdx + 1) = f
    rw [← List.tail_drop, h.unsent]
    rfl

end

/-- R185: the run of the send is the loop over the bytes still to send and the replies. By induction on those bytes. -/
theorem Sends.runs {f : List Byte} {s : State} (h : Sends f s) (hf : f ≠ []) :
    runSteps (2 * f.length) s = .next (sendEnded (sendRun s.params.role f s.inbound) s) := by
  induction f generalizing s with
  | nil => exact absurd rfl hf
  | cons b f ih =>
    have hsteps : 2 * (b :: f).length = 2 + 2 * f.length := by
      rw [List.length_cons]
      omega
    have ends : stepTxWait (written b s) = .next (sendEnded (sendRun s.params.role (b :: f) s.inbound) s) →
        runSteps (2 * (b :: f).length) s = .next (sendEnded (sendRun s.params.role (b :: f) s.inbound) s) := fun hend => by
      rw [hsteps, runSteps_add _ (h.two_steps hend), runSteps_idle (s := sendEnded _ s) _ h.inputs rfl]
    by_cases hack : s.inbound.head? = some Config.ack
    · obtain ⟨later, hb⟩ := List.head?_eq_some_iff.mp hack
      by_cases hlast : f = []
      · subst hlast
        exact ends (h.succeeds hb)
      · obtain ⟨hstep, hnext⟩ := h.goes_on hlast hb
        have hrest : (acknowledged b s).inbound = later := by
          rw [acknowledged, afterRead_byte (s := written b s) h.portOpen hb]
        rw [hsteps, runSteps_add _ (h.two_steps hstep), ih hnext hlast, ← h.sendEnded_acknowledged hb, ← hrest]
        rfl
    · exact ends (h.fails hack)

/-- Settles O57: accepted, the frame is to be sent from its first byte (`Sends.runs`). -/
theorem sendFrameRunsItsLoop : Obligations.SendFrameRunsItsLoop := by
  intro kind payload s hl hp hc ho hin hinv
  have h : Sends (frameBytes kind payload) (startSend (frameBytes kind payload) s) := ⟨rfl, ho, hin, hinv, rfl⟩
  refine ⟨_, exec_sendFrame_accepted kind hp hc hl, ?_⟩
  rw [← frameBytes_length kind payload, h.runs (by simp [frameBytes])]
  simp only [sendEnded, startSend, Nat.zero_add, hp]
  rfl

end Sys2Proof.Machine
end

section
/-! The probe of a candidate, `RELEASE`, and the two ends of `INVOKE` (R220 to R236): the stages before the link is used, and
the checks of the response. -/

namespace Sys2Proof.Machine

open Sys2Proof

/-! ### The probe (R232 to R234) -/

theorem probeNacks_eq (p : Params) (rs : List ProbeReply) :
    probeNacks p rs = (rs.filter fun r => r.byte = Config.nack ∧ r.atMs ≤ p.timeThresholdMs).length := by
  have hcounted : ProbeReply.countedNack p = fun r => decide (r.byte = Config.nack ∧ r.atMs ≤ p.timeThresholdMs) := by
    funext r
    simp [ProbeReply.countedNack, beq_eq_decide]
  rw [probeNacks, hcounted]

theorem probeNacks_le_append (p : Params) (front back : List ProbeReply) :
    probeNacks p front ≤ probeNacks p (front ++ back) := by
  simp [probeNacks]

theorem ackedBefore_zero (p : Params) (rs : List ProbeReply) : ackedBefore p 0 rs = false := by simp [ackedBefore]

/-- Once `k` NACKs within the window have come with no ACK, no later ACK counts. -/
theorem ackedBefore_append {p : Params} {front : List ProbeReply} (back : List ProbeReply) {k : Nat}
    (hk : k ≤ probeNacks p front) (h : ∀ r ∈ front, r.byte ≠ Config.ack) : ackedBefore p k (front ++ back) = false := by
  induction front generalizing k with
  | nil =>
    obtain rfl : k = 0 := Nat.le_zero.mp hk
    exact ackedBefore_zero p back
  | cons r front ih =>
    obtain ⟨hr, hfront⟩ := List.forall_mem_cons.mp h
    cases k with
    | zero => exact ackedBefore_zero p _
    | succ k =>
      rw [List.cons_append, ackedBefore, if_neg hr]
      unfold probeNacks at hk ih
      by_cases hn : ProbeReply.countedNack p r = true
      · rw [List.filter_cons_of_pos hn, List.length_cons] at hk
        rw [if_pos hn]
        exact ih (Nat.le_of_succ_le_succ hk) hfront
      · rw [List.filter_cons_of_neg hn] at hk
        rw [if_neg hn]
        exact ih hk hfront

/-- R234: rejected whatever the open verdict is. -/
theorem probePasses_rejected {p : Params} {rs : List ProbeReply} (free : Bool) (hn : p.nacksNeeded ≤ probeNacks p rs)
    (ha : ackedBefore p p.nacksNeeded rs = false) : probePasses p rs free = false := by
  simp [probePasses, hn, ha]

/-- R234: accepted whatever the open verdict is; a port that sent an ACK did respond. -/
theorem probePasses_accepted {p : Params} {rs : List ProbeReply} (free : Bool) (hne : rs ≠ [])
    (hn : probeNacks p rs < p.nacksNeeded) (ha : ackedBefore p p.nacksNeeded rs = true) : probePasses p rs free = true := by
  simp [probePasses, hne, Nat.not_le_of_gt hn, ha]

/-- Settles O28: enough NACKs in front reject (`ackedBefore_append`), too few of them leave an ACK its effect
(`ackedBefore_of_few_nacks`), and a port that never responds is the first case of `probePasses`. -/
theorem probeCountsNacksInTheWindow : Obligations.ProbeCountsNacksInTheWindow := by
  refine fun p free => ⟨fun front back hn hno => ?_, fun rs hn hack => ?_, fun hd => by simp [probePasses, hd]⟩
  · replace hn : p.nacksNeeded ≤ probeNacks p front := hn.trans_eq (probeNacks_eq p front).symm
    exact probePasses_rejected free (hn.trans (probeNacks_le_append p front back)) (ackedBefore_append back hn hno)
  · replace hn : probeNacks p rs < p.nacksNeeded := (probeNacks_eq p rs).trans_lt hn
    have hne : rs ≠ [] := hack.elim fun r hr => List.ne_nil_of_mem hr.1
    exact probePasses_accepted free hne hn (ackedBefore_of_few_nacks hn hack)

/-! ### RELEASE (R236) -/

/-- Settles O29: `execRelease` has no branch. -/
theorem releaseGivesThePortBack : Obligations.ReleaseGivesThePortBack := fun _ => ⟨rfl, rfl⟩

/-! ### The stages of INVOKE before the link is used (R220 to R223) -/

/-- R222: what it is for a required argument to be absent or `None`. -/
theorem argMissing_iff (kind : Byte) (args : Args) :
    argMissing kind args = true ↔ ∃ i ∈ requiredArgs kind, args[i]? = none ∨ args[i]? = some none := by
  have hjoin : ∀ i : Nat, args[i]?.join.isNone = true ↔ args[i]? = none ∨ args[i]? = some none := fun i => by
    rcases args[i]? with _ | _ | _ <;> simp
  simp only [argMissing, List.any_eq_true, hjoin]

section
variable {kind : Byte} {args : Args} {payload : List Byte}

theorem invokeStart_missing (s : State) (hm : argMissing kind args = true) :
    invokeStart kind args s = takeFailure .formatNoneError .none { s with invoke := some kind } := by
  simp [invokeStart, hm]

theorem invokeStart_guarded (s : State) (hm : argMissing kind args = false)
    (hg : Config.guardViolated kind args = true) :
    invokeStart kind args s = takeFailure .shutdownVoltageOverSystemVal .none { s with invoke := some kind } := by
  simp [invokeStart, hm, hg]

theorem invokeStart_unencoded (s : State) (hm : argMissing kind args = false)
    (hg : Config.guardViolated kind args = false) (he : encodeArgs kind args = none) :
    invokeStart kind args s = takeFailure .formatNoneError .none { s with invoke := some kind } := by
  simp [invokeStart, hm, hg, he]

theorem invokeStart_tooLong (s : State) (hm : argMissing kind args = false)
    (hg : Config.guardViolated kind args = false) (he : encodeArgs kind args = some payload) (hl : 255 < payload.length) :
    invokeStart kind args s = takeFailure .formatNoneError .encode { s with invoke := some kind } := by
  simp [invokeStart, hm, hg, he, encodeFrame_error hl, CodecError.status]

theorem invokeStart_accepted (s : State) (hm : argMissing kind args = false)
    (hg : Config.guardViolated kind args = false) (he : encodeArgs kind args = some payload) (hl : payload.length ≤ 255) :
    invokeStart kind args s = startSend (frameBytes kind payload) { s with invoke := some kind } := by
  simp [invokeStart, hm, hg, he, encodeFrame_ok hl]

end

theorem exec_invoke_accepted {s : State} (kind : Byte) (args : Args) (hp : s.phase = .idle) (hc : s.claimed = true) :
    exec (.invoke kind args) s = .next (invokeStart kind args s) := by
  simp [exec, execInvoke, transferRefusal_none hp hc]

/-- An invocation that fails in `IDLE` writes the pair it returns and nothing of the link (R227, R262). -/
theorem takeFailure_invoke_idle {s : State} (kind : Byte) (st : Status) (d : Diag) (hp : s.phase = .idle) :
    takeFailure st d { s with invoke := some kind } =
      { s with status := st, diag := d, ending := some (.invoked st none), invoke := none } := by
  have hidle : (State.phase { s with invoke := some kind }).receiving = false := by simp [hp, Phase.receiving]
  rw [takeFailure_sending st d hidle]
  simp [hp]

/-- Settles O26, stage by stage of `invokeStart`. -/
theorem invokeChecksBeforeItSends : Obligations.InvokeChecksBeforeItSends := by
  intro kind args s hp hc failed
  refine ⟨rfl, ?_, argMissing_iff kind args, rfl, rfl, rfl, fun _ => rfl⟩
  rw [exec_invoke_accepted kind args hp hc]
  congr 1
  have hfailed : ∀ st d, takeFailure st d { s with invoke := some kind } = failed st d :=
    fun st d => takeFailure_invoke_idle kind st d hp
  cases hm : argMissing kind args with
  | true => exact (invokeStart_missing s hm).trans (hfailed _ _)
  | false =>
    cases hg : Config.guardViolated kind args with
    | true => exact (invokeStart_guarded s hm hg).trans (hfailed _ _)
    | false =>
      cases he : encodeArgs kind args with
      | none => exact (invokeStart_unencoded s hm hg he).trans (hfailed _ _)
      | some payload =>
        by_cases hl : 255 < payload.length
        · simp [invokeStart_tooLong s hm hg he hl, hfailed, hl]
        · simp [invokeStart_accepted s hm hg he (Nat.le_of_not_lt hl), startSend, hl]

/-! ### The response of INVOKE (R225 to R227) -/

/-- Settles O41: the last byte is answered ACK, and `respond` checks the latched frame. -/
theorem invokeChecksTheResponse : Obligations.InvokeChecksTheResponse := by
  intro s f kind hin hp ho hst hexp hf hinv value st
  have he : expected s.params s.dec = true := expected_of_open hexp (by simp [hst])
  have hstep : step s = .next (respond kind f { afterWrite Config.ack s with result := some f }) :=
    calc step s = _ := step_rxReply_expected hin hp ho he
      _ = .next (recvDone f _) := afterReply_complete hst hf
      _ = _ := congrArg Host.Outcome.next (recvDone_some f hinv)
  exact ⟨_, hstep, rfl, rfl, rfl, rfl, rfl, rfl, rfl, rfl, fun _ => rfl⟩

end Sys2Proof.Machine
end

section
/-! `INVOKE` as one operation (R220, R221). While one of its transfers is in progress an invocation takes the steps of the
caller's own `SEND_FRAME` or `RECV_FRAME`, and where that ends it goes on; so the runs of these two give the run of `INVOKE`. -/

namespace Sys2Proof.Machine

open Sys2Proof

/-! ### What the ends of a transfer leave in `invoke`, a read byte, and steps past the end -/

section
variable {s u : State}

theorem acked_invoke_none (hinv : s.invoke = none) : (acked s).invoke = none := by
  rcases acked_cases s with ⟨-, e⟩ | ⟨-, -, e⟩ | ⟨-, -, -, e⟩ <;> rw [e]
  · exact hinv
  · rfl
  · exact hinv

@[simp] theorem verdictFailure_invoke (own : Status) (s : State) : (verdictFailure own s).invoke = none := by
  obtain ⟨_, _, e, -⟩ := verdictFailure_cases own s
  rw [e]
  rfl

@[simp] theorem recvDone_invoke (f : Frame) (s : State) : (recvDone f s).invoke = none := by
  unfold recvDone
  split <;> rfl

theorem stepRxWait_byte {b : Byte} {later : List Byte} (ho : s.portOpen = true) (hb : s.inbound = b :: later) :
    stepRxWait s = .next (judged b s) := by
  simp [stepRxWait, readAnswer_byte ho hb, judged]

/-- More steps leave an idle state as it is (R281). -/
theorem runSteps_of_le {j k : Nat} (hu : runSteps j s = .next u) (hjk : j ≤ k) (hin : u.inputs = [])
    (hp : u.phase = .idle) : runSteps k s = .next u := by
  obtain ⟨d, rfl⟩ := Nat.exists_eq_add_of_le hjk
  rw [runSteps_add d hu, runSteps_idle d hin hp]

end

/-! ### An invocation beside the caller's own transfer -/

/-- The state of a transfer of the caller's as it would be were the transfer part of an invocation of `kind`, with what the
operation before the invocation returned still in `ending`. -/
def invoking (kind : Byte) (before : Option Ending) (s : State) : State :=
  { s with invoke := some kind, ending := before }

/-- Where an invocation of `kind` is when the caller's own transfer is in `s`: in the same transfer while that is in progress;
past it once it has ended, in the reception after a send, and at its own end after a reception or a failure. The last case is
no end of a transfer. -/
def carryOn (kind : Byte) (before : Option Ending) (s : State) : State :=
  if s.phase = .idle then
    match s.ending with
    | some .sent => startRecv (invoking kind before s)
    | some (.frame f) => respond kind f s
    | some (.failed st) => { s with ending := some (.invoked st none), invoke := none }
    | _ => s
  else invoking kind before s

section
variable {kind : Byte} {before : Option Ending} {s t : State}

theorem carryOn_underWay (hp : s.phase ≠ .idle) : carryOn kind before s = invoking kind before s := if_neg hp

theorem carryOn_sent (hp : s.phase = .idle) (he : s.ending = some .sent) :
    carryOn kind before s = startRecv (invoking kind before s) := by simp [carryOn, hp, he]

theorem carryOn_frame {f : Frame} (hp : s.phase = .idle) (he : s.ending = some (.frame f)) :
    carryOn kind before s = respond kind f s := by simp [carryOn, hp, he]

theorem carryOn_failed {st : Status} (hp : s.phase = .idle) (he : s.ending = some (.failed st)) :
    carryOn kind before s = { s with ending := some (.invoked st none), invoke := none } := by simp [carryOn, hp, he]

/-- The failure entry returns the status from the invocation (R227, R262). -/
theorem carryOn_takeFailure (st : Status) (d : Diag) (hinv : s.invoke = none) :
    carryOn kind before (takeFailure st d s) = takeFailure st d (invoking kind before s) := by
  have he : (takeFailure st d s).ending = some (.failed st) := by simp [failureEnding, hinv]
  rw [carryOn_failed rfl he]
  rfl

theorem carryOn_verdictFailure (own : Status) (hinv : s.invoke = none) :
    carryOn kind before (verdictFailure own s) = verdictFailure own (invoking kind before s) := by
  unfold verdictFailure
  split
  next h => exact (carryOn_takeFailure (s := { s with free := s.free + 1 }) _ _ hinv).trans (if_pos h).symm
  next h => exact (carryOn_takeFailure _ _ hinv).trans (if_neg h).symm

/-- R225, R226: the latched frame is checked. -/
theorem carryOn_recvDone (f : Frame) (hinv : s.invoke = none) :
    carryOn kind before (recvDone f s) = recvDone f (invoking kind before s) := by
  rw [recvDone_none f hinv, carryOn_frame rfl rfl, recvDone_some f rfl]
  rfl

/-- R220, R221: the send is followed by a reception. -/
theorem carryOn_acked (hinv : s.invoke = none) : carryOn kind before (acked s) = acked (invoking kind before s) := by
  rcases acked_cases s with ⟨hne, e⟩ | ⟨hend, -, e⟩ | ⟨_, -, hsome, -⟩
  · rw [e, carryOn_underWay (by simp)]
    exact (if_neg hne).symm
  · rw [e, carryOn_sent rfl rfl]
    exact (if_pos hend).symm
  · cases hinv.symm.trans hsome

theorem afterReply_invoking (hinv : s.invoke = none) (h : afterReply s = .next t) :
    t.invoke = none ∧ afterReply (invoking kind before s) = .next (carryOn kind before t) := by
  rcases afterReply_next h with ⟨hst, rfl⟩ | ⟨hst, rfl⟩ | ⟨hst, rfl⟩ | ⟨f, hst, hf, rfl⟩
  · rw [carryOn_underWay (by simp)]
    exact ⟨hinv, afterReply_incomplete hst⟩
  · rw [carryOn_verdictFailure _ hinv]
    exact ⟨verdictFailure_invoke _ s, afterReply_sofError hst⟩
  · rw [carryOn_verdictFailure _ hinv]
    exact ⟨verdictFailure_invoke _ s, afterReply_crcError hst⟩
  · rw [carryOn_recvDone f hinv]
    exact ⟨recvDone_invoke f s, afterReply_complete hst hf⟩

/-- A step of the caller's own transfer is, but for its end, the step of the invocation. -/
theorem sequence_invoking (hinv : s.invoke = none) (hp : s.phase ≠ .idle) (h : sequence s = .next t) :
    t.invoke = none ∧ sequence (invoking kind before s) = .next (carryOn kind before t) := by
  cases hphase : s.phase with
  | idle => exact absurd hphase hp
  | txWrite =>
    rw [sequence_txWrite hphase] at h
    rw [sequence_txWrite (s := invoking kind before s) hphase]
    obtain ⟨b, hb, ⟨ho, rfl⟩ | ⟨ho, rfl⟩⟩ := stepTxWrite_next h
    · rw [carryOn_underWay (by simp)]
      exact ⟨hinv, stepTxWrite_open hb ho⟩
    · rw [carryOn_takeFailure (s := afterClosedWrite s) _ _ hinv]
      exact ⟨rfl, stepTxWrite_closed hb ho⟩
  | txWait =>
    rw [sequence_txWait hphase] at h
    rw [sequence_txWait (s := invoking kind before s) hphase]
    rcases stepTxWait_cases s with ⟨later, ho, hb, e⟩ | ⟨d, hno, e, hd⟩ <;> rw [e] at h <;>
      obtain rfl := Host.Outcome.next.inj h
    · rw [carryOn_acked (s := afterRead s) hinv]
      exact ⟨acked_invoke_none (s := afterRead s) hinv, stepTxWait_ack ho hb⟩
    · rw [carryOn_takeFailure (s := afterRead s) _ _ hinv]
      refine ⟨rfl, ?_⟩
      rcases stepTxWait_cases (invoking kind before s) with ⟨later, ho, hb, -⟩ | ⟨d', -, e', hd'⟩
      · exact absurd ⟨ho, congrArg List.head? hb⟩ hno
      · rw [e', hd.trans hd'.symm]
        rfl
  | rxWait =>
    rw [sequence_rxWait hphase] at h
    rw [sequence_rxWait (s := invoking kind before s) hphase]
    rcases stepRxWait_cases s with ⟨b, later, ho, hb, e⟩ | ⟨d, hno, e⟩ <;> rw [e] at h <;>
      obtain rfl := Host.Outcome.next.inj h
    · rw [carryOn_underWay (by simp)]
      exact ⟨hinv, stepRxWait_byte ho hb⟩
    · rw [carryOn_takeFailure (s := afterRead s) _ _ hinv]
      exact ⟨rfl, stepRxWait_noByte (s := invoking kind before s) (hno.imp (fun ⟨ho, hd⟩ => ⟨readAnswer_closed ho, hd⟩)
        fun ⟨ho, hb, hd⟩ => ⟨readAnswer_timeout ho hb, hd⟩)⟩
  | rxReply =>
    rw [sequence_rxReply hphase] at h
    rw [sequence_rxReply (s := invoking kind before s) hphase]
    rcases stepRxReply_next h with ⟨ho, hr⟩ | ⟨ho, rfl⟩
    · rw [stepRxReply_open (s := invoking kind before s) ho]
      exact afterReply_invoking (s := afterWrite (ackByte s.params s.dec) (countNack s)) hinv hr
    · rw [carryOn_takeFailure (s := afterClosedWrite (countNack s)) _ _ hinv]
      exact ⟨rfl, stepRxReply_closed ho⟩

/-- The run of the caller's own transfer to its end is, in the invocation, a run of no more steps. -/
theorem runSteps_invoking (k : Nat) (hin : s.inputs = []) (hinv : s.invoke = none) (hp : s.phase ≠ .idle)
    (h : runSteps k s = .next t) (ht : t.phase = .idle) :
    ∃ j ≤ k, runSteps j (invoking kind before s) = .next (carryOn kind before t) := by
  induction k generalizing s with
  | zero =>
    obtain rfl := Host.Outcome.next.inj h
    exact absurd ht hp
  | succ k ih =>
    cases hs : step s with
    | fault r => simp [runSteps, hs] at h
    | refused r => simp [runSteps, hs] at h
    | next u =>
      rw [runSteps_next k hs] at h
      rw [step_nil hin] at hs
      obtain ⟨huinv, hstep⟩ := sequence_invoking (kind := kind) (before := before) hinv hp hs
      rw [← step_nil (s := invoking kind before s) hin] at hstep
      have hnil : u.inputs = [] := (sequence_inputs hs).trans hin
      by_cases hidle : u.phase = .idle
      · rw [runSteps_idle k hnil hidle] at h
        obtain rfl := Host.Outcome.next.inj h
        exact ⟨1, by omega, runSteps_next 0 hstep⟩
      · obtain ⟨j, hj, hrun⟩ := ih hnil huinv hidle h
        rw [carryOn_underWay hidle] at hstep
        exact ⟨j + 1, by omega, (runSteps_next j hstep).trans hrun⟩

end

/-! ### The pair that INVOKE returns (R220, R227) -/

/-- An invocation has ended in `u` and returned the pair `r`. -/
structure Returned (r : Status × Option Value) (u : State) : Prop where
  phase : u.phase = .idle
  inputs : u.inputs = []
  invoke : u.invoke = none
  status : u.status = r.1
  ending : u.ending = some (.invoked r.1 r.2)

/-- The pair that the response checks give for a frame (R225, R226). -/
def checkedFrame (kind : Byte) (f : Frame) : Status × Option Value :=
  (responseStatus kind f, if responseStatus kind f = .success then some (decodeResult kind f.payload) else none)

/-- The pair that a reception over the peer's bytes gives an invocation of `kind` (R220). -/
def responseOutcome (kind : Byte) (inbound : List Byte) : Status × Option Value :=
  match decodeFrame inbound with
  | .error e => (e.status, none)
  | .ok f => checkedFrame kind f

section
variable {kind : Byte} {args : Args} {payload inbound : List Byte} {role : Role}

/-- The last stages of the pseudocode, as the response checks of the machine have them. -/
theorem checkedFrame_eq (kind : Byte) (f : Frame) : checkedFrame kind f =
    if f.kind ≠ kind ∨ f.payload.length ≠ responseLen kind then (.recvUnexpectedPayloadError, none)
    else if inValidRange kind (decodeResult kind f.payload) then (.success, some (decodeResult kind f.payload))
    else (.recvFrameValueError, none) := by
  unfold checkedFrame responseStatus
  split
  · rfl
  · split <;> rfl

theorem invokeOutcome_accepted (hm : argMissing kind args = false) (hg : Config.guardViolated kind args = false)
    (he : encodeArgs kind args = some payload) (hl : payload.length ≤ 255) :
    invokeOutcome role kind args inbound =
      if (sendRun role (frameBytes kind payload) inbound).failure = none then
        responseOutcome kind (sendRun role (frameBytes kind payload) inbound).rest
      else (.sendCmdFailure, none) := by
  have hfits : ¬ 255 < payload.length := Nat.not_lt.mpr hl
  cases hf : (sendRun role (frameBytes kind payload) inbound).failure with
  | some d => simp [invokeOutcome, hm, hg, he, hfits, hf]
  | none =>
    cases hd : decodeFrame (sendRun role (frameBytes kind payload) inbound).rest with
    | error e => simp [invokeOutcome, responseOutcome, hm, hg, he, hfits, hf, hd]
    | ok f => simp [invokeOutcome, responseOutcome, checkedFrame_eq, hm, hg, he, hfits, hf, hd]

/-- An invocation that is not accepted fails at once with the status of its stage (R220, R259). -/
theorem invokeStart_answer (kind : Byte) (args : Args) (s : State) :
    (∃ st d, invokeStart kind args s = takeFailure st d { s with invoke := some kind } ∧
      ∀ role inbound, invokeOutcome role kind args inbound = (st, none)) ∨
    (∃ payload, payload.length ≤ 255 ∧
      invokeStart kind args s = startSend (frameBytes kind payload) { s with invoke := some kind } ∧
      ∀ role inbound, invokeOutcome role kind args inbound =
        if (sendRun role (frameBytes kind payload) inbound).failure = none then
          responseOutcome kind (sendRun role (frameBytes kind payload) inbound).rest
        else (.sendCmdFailure, none)) := by
  cases hm : argMissing kind args with
  | true => exact .inl ⟨_, _, invokeStart_missing s hm, by simp [invokeOutcome, hm]⟩
  | false =>
    cases hg : Config.guardViolated kind args with
    | true => exact .inl ⟨_, _, invokeStart_guarded s hm hg, by simp [invokeOutcome, hm, hg]⟩
    | false =>
      cases he : encodeArgs kind args with
      | none => exact .inl ⟨_, _, invokeStart_unencoded s hm hg he, by simp [invokeOutcome, hm, hg, he]⟩
      | some payload =>
        by_cases hl : 255 < payload.length
        · exact .inl ⟨_, _, invokeStart_tooLong s hm hg he hl, by simp [invokeOutcome, hm, hg, he, hl]⟩
        · replace hl := Nat.le_of_not_lt hl
          exact .inr ⟨payload, hl, invokeStart_accepted s hm hg he hl, fun _ _ => invokeOutcome_accepted hm hg he hl⟩

end

/-! ### The run of INVOKE -/

section
variable {kind : Byte} {before : Option Ending} {s u : State}

theorem returned_takeFailure (st : Status) (d : Diag) (hin : s.inputs = []) :
    Returned (st, none) (takeFailure st d { s with invoke := some kind }) := ⟨rfl, hin, rfl, rfl, rfl⟩

/-- The invocation fails with the status of its transfer (R220, R262). -/
theorem returned_of_failed {st : Status} (hp : s.phase = .idle) (hin : s.inputs = []) (hst : s.status = st)
    (he : s.ending = some (.failed st)) : Returned (st, none) (carryOn kind before s) := by
  rw [carryOn_failed hp he]
  exact ⟨hp, hin, rfl, hst, rfl⟩

theorem returned_of_frame {f : Frame} (hp : s.phase = .idle) (hin : s.inputs = []) (he : s.ending = some (.frame f)) :
    Returned (checkedFrame kind f) (carryOn kind before s) := by
  rw [carryOn_frame hp he]
  exact ⟨rfl, hin, rfl, rfl, rfl⟩

/-- The pair is that of the reception's run (`Awaits.runs`), checked. -/
theorem Received.returned (h : Received s u) : Returned (responseOutcome kind s.inbound) (carryOn kind before u) := by
  unfold responseOutcome
  cases hd : decodeFrame s.inbound with
  | ok f =>
    obtain ⟨-, -, -, he⟩ := h.ok f hd
    exact returned_of_frame h.phase h.inputs he
  | error e =>
    obtain ⟨hst, -, he, -⟩ := h.error e hd
    exact returned_of_failed h.phase h.inputs hst he

/-- The reception of an invocation ends within 518 steps with the pair of its response (R204, R220). -/
theorem invoking_receives (ho : s.portOpen = true) (hin : s.inputs = []) (hinv : s.invoke = none)
    (hnever : s.params.desync = .never) :
    ∃ j ≤ 518, ∃ u, runSteps j (startRecv (invoking kind before s)) = .next u ∧
      Returned (responseOutcome kind s.inbound) u := by
  obtain ⟨u, hu, hr⟩ := (awaits_startRecv ho hin hinv).runs hnever _ rfl
  obtain ⟨j, hj, hrun⟩ := runSteps_invoking (s := startRecv s) _ hin hinv (by simp) hu hr.phase
  exact ⟨j, hj, _, hrun, hr.returned⟩

/-- From the acceptance of its request on, an invocation runs the loop of R185 and then, when every byte was acknowledged, its
reception. -/
theorem invoking_sends {f : List Byte} (h : Sends f s) (hf : f ≠ []) (hlen : f.length ≤ 259)
    (hnever : s.params.desync = .never) :
    ∃ u, runSteps 1036 (invoking kind before s) = .next u ∧
      Returned (if (sendRun s.params.role f s.inbound).failure = none then
          responseOutcome kind (sendRun s.params.role f s.inbound).rest
        else (.sendCmdFailure, none)) u := by
  have hidle : (sendEnded (sendRun s.params.role f s.inbound) s).phase = .idle := rfl
  obtain ⟨j, hj, hsent⟩ := runSteps_invoking (kind := kind) (before := before) _ h.inputs h.invoke (by simp [h.phase])
    (h.runs hf) hidle
  by_cases hfail : (sendRun s.params.role f s.inbound).failure = none
  · rw [if_pos hfail]
    rw [carryOn_sent hidle (by simp [sendEnded, hfail])] at hsent
    obtain ⟨i, hi, u, hu, hr⟩ := invoking_receives (kind := kind) (before := before)
      (s := sendEnded (sendRun s.params.role f s.inbound) s) h.portOpen h.inputs h.invoke hnever
    exact ⟨u, runSteps_of_le ((runSteps_add i hsent).trans hu) (by omega) hr.inputs hr.phase, hr⟩
  · rw [if_neg hfail]
    have hr : Returned (.sendCmdFailure, none)
        (carryOn kind before (sendEnded (sendRun s.params.role f s.inbound) s)) := by
      refine returned_of_failed hidle h.inputs ?_ (by simp [sendEnded, hfail])
      simp [sendEnded, SendRun.status, Option.isSome_iff_ne_none, hfail]
    exact ⟨_, runSteps_of_le hsent (by omega) hr.inputs hr.phase, hr⟩

end

/-- Settles O60: a stage before the link fails at once, or the request is sent (`invoking_sends`); either way the pair is that
of the pseudocode (`invokeStart_answer`). -/
theorem invokeRunsItsStages : Obligations.InvokeRunsItsStages := by
  intro kind args s hp hc ho hin hnever
  refine ⟨argMissing_iff kind args, ?_⟩
  obtain ⟨u, hu, hr⟩ : ∃ u, runSteps 1036 (invokeStart kind args s) = .next u ∧
      Returned (invokeOutcome s.params.role kind args s.inbound) u := by
    rcases invokeStart_answer kind args s with ⟨st, d, hstart, hout⟩ | ⟨payload, hl, hstart, hout⟩ <;> rw [hstart, hout]
    · have hr := returned_takeFailure (kind := kind) st d hin
      exact ⟨_, runSteps_idle 1036 hr.inputs hr.phase, hr⟩
    · have hsends : Sends (frameBytes kind payload) (startSend (frameBytes kind payload) { s with invoke := none }) :=
        ⟨rfl, ho, hin, rfl, rfl⟩
      have hlen : (frameBytes kind payload).length ≤ 259 := by
        rw [frameBytes_length]
        omega
      exact invoking_sends (before := s.ending) hsends (by simp [frameBytes]) hlen hnever
  exact ⟨_, u, exec_invoke_accepted kind args hp hc, hu, hr.phase, hr.invoke, hr.status, hr.ending⟩

end Sys2Proof.Machine
end

section
/-! What a step does with something presented (R275, R276): the decoder names the instruction, and its meaning is the step. -/

namespace Sys2Proof.Machine

open Sys2Proof

theorem present_decoded {p : Presented} {i : Instr} (h : decode p = .ok i) (s : State) : present p s = exec i s := by
  simp only [present, h]

/-- Settles O44: the input is taken off the queue (`step_cons`), and what it presents is executed as what it decodes to
(`present_decoded`). -/
theorem stepExecutesThePresentedInstruction : Obligations.StepExecutesThePresentedInstruction := by
  intro s p rest i hin hdec
  calc step s = present p { s with inputs := rest } := step_cons hin
    _ = exec i { s with inputs := rest } := present_decoded hdec _

end Sys2Proof.Machine
end

section
/-! Reset and hazards (`70_reset_and_hazards.md`): the reset event, the uses that are refused, and the operations that run
beside a transfer. -/

namespace Sys2Proof.Machine

open Sys2Proof

/-! ### The reset event -/

/-- Neither buffer holds a value after the reset event (R47). -/
theorem resetEvent_memRead (s : State) (space : Space) (addr : Nat) : (resetEvent s).memRead space addr = none := by
  cases space with
  | txBuf => exact reset_memRead .txBuf addr
  | decBuf => exact reset_memRead .decBuf addr

theorem resetEvent_statusReg (s : State) : (resetEvent s).statusReg = 0x00#8 := by
  have hcode : Status.success.code = 0x00#8 := by decide
  rw [State.statusReg, resetEvent_status, hcode]

/-- Settles O2: the step is the reset event (`step_cons`); each element by computation, the status register by
`resetEvent_statusReg`, the buffers by `resetEvent_memRead`. -/
theorem resetEventGivesTheResetValues : Obligations.ResetEventGivesTheResetValues := by
  intro s rest hin
  have hstep : step s = .next (resetEvent { s with inputs := rest }) := step_cons hin
  exact ⟨_, hstep, rfl, rfl, rfl, rfl, rfl, rfl, rfl, rfl, rfl, resetEvent_statusReg _, rfl, rfl, rfl, rfl,
    resetEvent_memRead _, rfl, rfl⟩

/-! ### Refused uses -/

/-- The three operations that use the link pass on what refuses a transfer (R303, R308). -/
theorem exec_transfer_refused {s : State} {r : Refusal} (h : transferRefusal s = some r) (kind : Byte)
    (payload : List Byte) (args : Args) :
    exec (.sendFrame kind payload) s = .refused r ∧ exec .recvFrame s = .refused r ∧
    exec (.invoke kind args) s = .refused r := by
  simp [exec, execSendFrame, execRecvFrame, execInvoke, h]

theorem exec_claim_refused {s : State} (h : s.phase ≠ .idle) (port : Option PortName) :
    exec (.claim port) s = .refused .busy := by
  simp [exec, execClaim, busyRefusal, h]

/-- Both operations that write the accumulator pass on what refuses them (R308). -/
theorem exec_accumulator_refused {s : State} {r : Refusal} (h : accumulatorRefusal s = some r) (b : Byte) :
    exec .decRst s = .refused r ∧ exec (.decPush b) s = .refused r := by
  simp [exec, execDecRst, execDecPush, h]

/-- Settles O23, clause by clause: what `transferRefusal`, `busyRefusal` and `accumulatorRefusal` answer is the answer of the
operations that ask them. -/
theorem forbiddenUsesAreRefused : Obligations.ForbiddenUsesAreRefused := by
  intro s kind b payload args port
  refine ⟨fun hidle hport => ?_, fun hbusy => ?_, fun hrecv => ?_⟩
  · exact exec_transfer_refused (transferRefusal_noPort hidle hport) kind payload args
  · obtain ⟨hsend, hrecv, hinvoke⟩ := exec_transfer_refused (transferRefusal_busy hbusy) kind payload args
    exact ⟨hsend, hrecv, hinvoke, exec_claim_refused hbusy port⟩
  · exact exec_accumulator_refused (accumulatorRefusal_busy hrecv) b

/-! ### Operations that run beside a transfer -/

/-- The operations of R309 off the link and the accumulator write `CRC.R` and their ending at most. -/
theorem exec_free_of_transfer {i : Instr} {b kind : Byte} {bs payload : List Byte}
    (hi : i ∈ [Instr.crcClr, .crcUpd b, .crcRd, .checksum bs, .encode kind payload, .decode bs]) (s : State) :
    ∃ crc e, exec i s = .next (endWith e { s with crc := crc }) := by
  simp only [List.mem_cons, List.not_mem_nil, or_false] at hi
  rcases hi with rfl | rfl | rfl | rfl | rfl | rfl <;> exact ⟨_, _, rfl⟩

/-- Settles O24: the next state differs from `s` in `CRC.R` and the ending alone (`exec_free_of_transfer`). -/
theorem freeOperationsDisturbNoTransfer : Obligations.FreeOperationsDisturbNoTransfer := by
  intro s b kind bs payload i hi
  obtain ⟨crc, e, hexec⟩ := exec_free_of_transfer hi s
  exact ⟨_, hexec, rfl, rfl, rfl, rfl, rfl, rfl, rfl, rfl, rfl, rfl, rfl, rfl⟩

end Sys2Proof.Machine
end
